-- ==== Sys2Proof/Word.lean ====
section
/-! DEFINITION. The machine's two word types (10_state.md R10, 00_scope.md R9). An address handed to memory is a plain `Nat`,
never reduced (R9), so it has no type of its own here. -/

namespace Sys2Proof

/-- An 8-bit register, operand or memory byte. -/
abbrev Byte := BitVec 8

/-- The program counter and every 16-bit operand, pointer or return address. -/
abbrev Word := BitVec 16

end Sys2Proof
end

