-- ==== Sys2Proof/Config.lean ====
section
/-! DEFINITION. The four parameters of the model (00_scope.md R1 to R4). They are plain data, held in `State.cfg`, so that a
statement over every state is a statement over every value of every parameter (DESIGN CHOICE, log entry 1); no step writes them (10_state.md
R26). The fifth parameter, FILL (R5), is a function, so it is an argument of `load` and no part of the state. The model has no
free value: the spec leaves no result open (93_implementation_defined.md, Part 1). -/

namespace Sys2Proof

/-- IMM_WIDTH (R2): how many bytes the Immediate mode advances PC by. -/
inductive ImmWidth where
  | one
  | two
  deriving DecidableEq, Repr

/-- INDY_INDEX (R3): the index register the IndirectY mode adds. -/
inductive IndexReg where
  | x
  | y
  deriving DecidableEq, Repr

/-- DECIMAL_MODE (R4): what ADC and SBC do while P.D = 1. -/
inductive DecimalMode where
  | binary
  | refuse
  deriving DecidableEq, Repr

/-- The parameters of one machine. -/
structure Config where
  /-- MEM_SIZE (R1), the number of bytes of memory; `Config.wf` states R1's range. -/
  memSize : Nat
  /-- IMM_WIDTH (R2). -/
  immWidth : ImmWidth
  /-- INDY_INDEX (R3). -/
  indyIndex : IndexReg
  /-- DECIMAL_MODE (R4). -/
  decimalMode : DecimalMode
  deriving DecidableEq, Repr

/-- The default of each parameter, as R1 to R4 state it. -/
def Config.default : Config :=
  { memSize := 65536, immWidth := .one, indyIndex := .y, decimalMode := .binary }

end Sys2Proof
end

