-- ==== Sys2Proof/Syntax.lean ====
section
/-! DEFINITION. Instructions as data: the 12 addressing modes (30_encoding.md R51), the 56 operations (R54), the operand of an
instruction, and `Instr`, one constructor for each of the 151 rows of spec/opcode_table.json. `Instr.operation` and
`Instr.operand` give each instruction the (Operation, OperandMode) pair that R54's grid gives its opcode. -/

namespace Sys2Proof

/-- OperandMode: the 12 addressing modes (30_encoding.md R51). -/
inductive Mode where
  | implied
  | accumulator
  | immediate
  | zeroPage
  | zeroPageX
  | zeroPageY
  | indirectX
  | indirectY
  | absolute
  | absoluteX
  | absoluteY
  | indirect
  deriving DecidableEq, Repr

/-- Operation: the 56 mnemonics (30_encoding.md R54). -/
inductive Operation where
  | lda
  | ldx
  | ldy
  | sta
  | stx
  | sty
  | tax
  | tay
  | txa
  | tya
  | adc
  | sbc
  | cmp
  | cpx
  | cpy
  | inc
  | dec
  | inx
  | iny
  | dex
  | dey
  | and
  | ora
  | eor
  | bit
  | asl
  | lsr
  | rol
  | ror
  | bpl
  | bmi
  | bvc
  | bvs
  | bcc
  | bcs
  | bne
  | beq
  | jmp
  | jsr
  | rts
  | brk
  | rti
  | pha
  | php
  | pla
  | plp
  | tsx
  | txs
  | clc
  | sec
  | cli
  | sei
  | cld
  | sed
  | clv
  | nop
  deriving DecidableEq, Repr

/-- A memory operand: one of the nine modes that reach memory, with its operand field (30_encoding.md R51, R52). `z` is a
zero-page byte, `a` a 16-bit address, `p` a 16-bit pointer address. -/
inductive MemOperand where
  | zeroPage (z : Byte)
  | zeroPageX (z : Byte)
  | zeroPageY (z : Byte)
  | indirectX (z : Byte)
  | indirectY (z : Byte)
  | absolute (a : Word)
  | absoluteX (a : Word)
  | absoluteY (a : Word)
  | indirect (p : Word)
  deriving DecidableEq, Repr

/-- The operand of an instruction, in any of the 12 modes. A branch's operand is `immediate` (45_branch.md R160). -/
inductive Operand where
  | implied
  | accumulator
  | immediate (v : Byte)
  | mem (m : MemOperand)
  deriving DecidableEq, Repr

/-- The addressing mode of a memory operand. -/
def MemOperand.mode : MemOperand → Mode
  | .zeroPage _ => .zeroPage
  | .zeroPageX _ => .zeroPageX
  | .zeroPageY _ => .zeroPageY
  | .indirectX _ => .indirectX
  | .indirectY _ => .indirectY
  | .absolute _ => .absolute
  | .absoluteX _ => .absoluteX
  | .absoluteY _ => .absoluteY
  | .indirect _ => .indirect

/-- The addressing mode of an operand. -/
def Operand.mode : Operand → Mode
  | .implied => .implied
  | .accumulator => .accumulator
  | .immediate _ => .immediate
  | .mem m => m.mode

/-- One constructor for each row of spec/opcode_table.json, named by its mnemonic and, where the mnemonic has more than one
mode or an operand form, its mode. `v` is an immediate value, `d` a branch offset byte. -/
inductive Instr where
  | ldaIndirectX (z : Byte)
  | ldaZeroPage (z : Byte)
  | ldaImmediate (v : Byte)
  | ldaAbsolute (a : Word)
  | ldaIndirectY (z : Byte)
  | ldaZeroPageX (z : Byte)
  | ldaAbsoluteY (a : Word)
  | ldaAbsoluteX (a : Word)
  | ldxImmediate (v : Byte)
  | ldxZeroPage (z : Byte)
  | ldxAbsolute (a : Word)
  | ldxZeroPageY (z : Byte)
  | ldxAbsoluteY (a : Word)
  | ldyImmediate (v : Byte)
  | ldyZeroPage (z : Byte)
  | ldyAbsolute (a : Word)
  | ldyZeroPageX (z : Byte)
  | ldyAbsoluteX (a : Word)
  | staIndirectX (z : Byte)
  | staZeroPage (z : Byte)
  | staAbsolute (a : Word)
  | staIndirectY (z : Byte)
  | staZeroPageX (z : Byte)
  | staAbsoluteY (a : Word)
  | staAbsoluteX (a : Word)
  | stxZeroPage (z : Byte)
  | stxAbsolute (a : Word)
  | stxZeroPageY (z : Byte)
  | styZeroPage (z : Byte)
  | styAbsolute (a : Word)
  | styZeroPageX (z : Byte)
  | tax
  | tay
  | txa
  | tya
  | adcIndirectX (z : Byte)
  | adcZeroPage (z : Byte)
  | adcImmediate (v : Byte)
  | adcAbsolute (a : Word)
  | adcIndirectY (z : Byte)
  | adcZeroPageX (z : Byte)
  | adcAbsoluteY (a : Word)
  | adcAbsoluteX (a : Word)
  | sbcIndirectX (z : Byte)
  | sbcZeroPage (z : Byte)
  | sbcImmediate (v : Byte)
  | sbcAbsolute (a : Word)
  | sbcIndirectY (z : Byte)
  | sbcZeroPageX (z : Byte)
  | sbcAbsoluteY (a : Word)
  | sbcAbsoluteX (a : Word)
  | cmpIndirectX (z : Byte)
  | cmpZeroPage (z : Byte)
  | cmpImmediate (v : Byte)
  | cmpAbsolute (a : Word)
  | cmpIndirectY (z : Byte)
  | cmpZeroPageX (z : Byte)
  | cmpAbsoluteY (a : Word)
  | cmpAbsoluteX (a : Word)
  | cpxImmediate (v : Byte)
  | cpxZeroPage (z : Byte)
  | cpxAbsolute (a : Word)
  | cpyImmediate (v : Byte)
  | cpyZeroPage (z : Byte)
  | cpyAbsolute (a : Word)
  | incZeroPage (z : Byte)
  | incAbsolute (a : Word)
  | incZeroPageX (z : Byte)
  | incAbsoluteX (a : Word)
  | decZeroPage (z : Byte)
  | decAbsolute (a : Word)
  | decZeroPageX (z : Byte)
  | decAbsoluteX (a : Word)
  | inx
  | iny
  | dex
  | dey
  | andIndirectX (z : Byte)
  | andZeroPage (z : Byte)
  | andImmediate (v : Byte)
  | andAbsolute (a : Word)
  | andIndirectY (z : Byte)
  | andZeroPageX (z : Byte)
  | andAbsoluteY (a : Word)
  | andAbsoluteX (a : Word)
  | oraIndirectX (z : Byte)
  | oraZeroPage (z : Byte)
  | oraImmediate (v : Byte)
  | oraAbsolute (a : Word)
  | oraIndirectY (z : Byte)
  | oraZeroPageX (z : Byte)
  | oraAbsoluteY (a : Word)
  | oraAbsoluteX (a : Word)
  | eorIndirectX (z : Byte)
  | eorZeroPage (z : Byte)
  | eorImmediate (v : Byte)
  | eorAbsolute (a : Word)
  | eorIndirectY (z : Byte)
  | eorZeroPageX (z : Byte)
  | eorAbsoluteY (a : Word)
  | eorAbsoluteX (a : Word)
  | bitZeroPage (z : Byte)
  | bitAbsolute (a : Word)
  | aslZeroPage (z : Byte)
  | aslAccumulator
  | aslAbsolute (a : Word)
  | aslZeroPageX (z : Byte)
  | aslAbsoluteX (a : Word)
  | lsrZeroPage (z : Byte)
  | lsrAccumulator
  | lsrAbsolute (a : Word)
  | lsrZeroPageX (z : Byte)
  | lsrAbsoluteX (a : Word)
  | rolZeroPage (z : Byte)
  | rolAccumulator
  | rolAbsolute (a : Word)
  | rolZeroPageX (z : Byte)
  | rolAbsoluteX (a : Word)
  | rorZeroPage (z : Byte)
  | rorAccumulator
  | rorAbsolute (a : Word)
  | rorZeroPageX (z : Byte)
  | rorAbsoluteX (a : Word)
  | bpl (d : Byte)
  | bmi (d : Byte)
  | bvc (d : Byte)
  | bvs (d : Byte)
  | bcc (d : Byte)
  | bcs (d : Byte)
  | bne (d : Byte)
  | beq (d : Byte)
  | jmpAbsolute (a : Word)
  | jmpIndirect (p : Word)
  | jsr (a : Word)
  | rts
  | brk
  | rti
  | pha
  | php
  | pla
  | plp
  | tsx
  | txs
  | clc
  | sec
  | cli
  | sei
  | cld
  | sed
  | clv
  | nop
  deriving DecidableEq, Repr

/-- The Operation of an instruction (30_encoding.md R54). -/
def Instr.operation : Instr → Operation
  | .ldaIndirectX _ => .lda
  | .ldaZeroPage _ => .lda
  | .ldaImmediate _ => .lda
  | .ldaAbsolute _ => .lda
  | .ldaIndirectY _ => .lda
  | .ldaZeroPageX _ => .lda
  | .ldaAbsoluteY _ => .lda
  | .ldaAbsoluteX _ => .lda
  | .ldxImmediate _ => .ldx
  | .ldxZeroPage _ => .ldx
  | .ldxAbsolute _ => .ldx
  | .ldxZeroPageY _ => .ldx
  | .ldxAbsoluteY _ => .ldx
  | .ldyImmediate _ => .ldy
  | .ldyZeroPage _ => .ldy
  | .ldyAbsolute _ => .ldy
  | .ldyZeroPageX _ => .ldy
  | .ldyAbsoluteX _ => .ldy
  | .staIndirectX _ => .sta
  | .staZeroPage _ => .sta
  | .staAbsolute _ => .sta
  | .staIndirectY _ => .sta
  | .staZeroPageX _ => .sta
  | .staAbsoluteY _ => .sta
  | .staAbsoluteX _ => .sta
  | .stxZeroPage _ => .stx
  | .stxAbsolute _ => .stx
  | .stxZeroPageY _ => .stx
  | .styZeroPage _ => .sty
  | .styAbsolute _ => .sty
  | .styZeroPageX _ => .sty
  | .tax => .tax
  | .tay => .tay
  | .txa => .txa
  | .tya => .tya
  | .adcIndirectX _ => .adc
  | .adcZeroPage _ => .adc
  | .adcImmediate _ => .adc
  | .adcAbsolute _ => .adc
  | .adcIndirectY _ => .adc
  | .adcZeroPageX _ => .adc
  | .adcAbsoluteY _ => .adc
  | .adcAbsoluteX _ => .adc
  | .sbcIndirectX _ => .sbc
  | .sbcZeroPage _ => .sbc
  | .sbcImmediate _ => .sbc
  | .sbcAbsolute _ => .sbc
  | .sbcIndirectY _ => .sbc
  | .sbcZeroPageX _ => .sbc
  | .sbcAbsoluteY _ => .sbc
  | .sbcAbsoluteX _ => .sbc
  | .cmpIndirectX _ => .cmp
  | .cmpZeroPage _ => .cmp
  | .cmpImmediate _ => .cmp
  | .cmpAbsolute _ => .cmp
  | .cmpIndirectY _ => .cmp
  | .cmpZeroPageX _ => .cmp
  | .cmpAbsoluteY _ => .cmp
  | .cmpAbsoluteX _ => .cmp
  | .cpxImmediate _ => .cpx
  | .cpxZeroPage _ => .cpx
  | .cpxAbsolute _ => .cpx
  | .cpyImmediate _ => .cpy
  | .cpyZeroPage _ => .cpy
  | .cpyAbsolute _ => .cpy
  | .incZeroPage _ => .inc
  | .incAbsolute _ => .inc
  | .incZeroPageX _ => .inc
  | .incAbsoluteX _ => .inc
  | .decZeroPage _ => .dec
  | .decAbsolute _ => .dec
  | .decZeroPageX _ => .dec
  | .decAbsoluteX _ => .dec
  | .inx => .inx
  | .iny => .iny
  | .dex => .dex
  | .dey => .dey
  | .andIndirectX _ => .and
  | .andZeroPage _ => .and
  | .andImmediate _ => .and
  | .andAbsolute _ => .and
  | .andIndirectY _ => .and
  | .andZeroPageX _ => .and
  | .andAbsoluteY _ => .and
  | .andAbsoluteX _ => .and
  | .oraIndirectX _ => .ora
  | .oraZeroPage _ => .ora
  | .oraImmediate _ => .ora
  | .oraAbsolute _ => .ora
  | .oraIndirectY _ => .ora
  | .oraZeroPageX _ => .ora
  | .oraAbsoluteY _ => .ora
  | .oraAbsoluteX _ => .ora
  | .eorIndirectX _ => .eor
  | .eorZeroPage _ => .eor
  | .eorImmediate _ => .eor
  | .eorAbsolute _ => .eor
  | .eorIndirectY _ => .eor
  | .eorZeroPageX _ => .eor
  | .eorAbsoluteY _ => .eor
  | .eorAbsoluteX _ => .eor
  | .bitZeroPage _ => .bit
  | .bitAbsolute _ => .bit
  | .aslZeroPage _ => .asl
  | .aslAccumulator => .asl
  | .aslAbsolute _ => .asl
  | .aslZeroPageX _ => .asl
  | .aslAbsoluteX _ => .asl
  | .lsrZeroPage _ => .lsr
  | .lsrAccumulator => .lsr
  | .lsrAbsolute _ => .lsr
  | .lsrZeroPageX _ => .lsr
  | .lsrAbsoluteX _ => .lsr
  | .rolZeroPage _ => .rol
  | .rolAccumulator => .rol
  | .rolAbsolute _ => .rol
  | .rolZeroPageX _ => .rol
  | .rolAbsoluteX _ => .rol
  | .rorZeroPage _ => .ror
  | .rorAccumulator => .ror
  | .rorAbsolute _ => .ror
  | .rorZeroPageX _ => .ror
  | .rorAbsoluteX _ => .ror
  | .bpl _ => .bpl
  | .bmi _ => .bmi
  | .bvc _ => .bvc
  | .bvs _ => .bvs
  | .bcc _ => .bcc
  | .bcs _ => .bcs
  | .bne _ => .bne
  | .beq _ => .beq
  | .jmpAbsolute _ => .jmp
  | .jmpIndirect _ => .jmp
  | .jsr _ => .jsr
  | .rts => .rts
  | .brk => .brk
  | .rti => .rti
  | .pha => .pha
  | .php => .php
  | .pla => .pla
  | .plp => .plp
  | .tsx => .tsx
  | .txs => .txs
  | .clc => .clc
  | .sec => .sec
  | .cli => .cli
  | .sei => .sei
  | .cld => .cld
  | .sed => .sed
  | .clv => .clv
  | .nop => .nop

/-- The operand of an instruction, in its OperandMode (30_encoding.md R54). -/
def Instr.operand : Instr → Operand
  | .ldaIndirectX z => .mem (.indirectX z)
  | .ldaZeroPage z => .mem (.zeroPage z)
  | .ldaImmediate v => .immediate v
  | .ldaAbsolute a => .mem (.absolute a)
  | .ldaIndirectY z => .mem (.indirectY z)
  | .ldaZeroPageX z => .mem (.zeroPageX z)
  | .ldaAbsoluteY a => .mem (.absoluteY a)
  | .ldaAbsoluteX a => .mem (.absoluteX a)
  | .ldxImmediate v => .immediate v
  | .ldxZeroPage z => .mem (.zeroPage z)
  | .ldxAbsolute a => .mem (.absolute a)
  | .ldxZeroPageY z => .mem (.zeroPageY z)
  | .ldxAbsoluteY a => .mem (.absoluteY a)
  | .ldyImmediate v => .immediate v
  | .ldyZeroPage z => .mem (.zeroPage z)
  | .ldyAbsolute a => .mem (.absolute a)
  | .ldyZeroPageX z => .mem (.zeroPageX z)
  | .ldyAbsoluteX a => .mem (.absoluteX a)
  | .staIndirectX z => .mem (.indirectX z)
  | .staZeroPage z => .mem (.zeroPage z)
  | .staAbsolute a => .mem (.absolute a)
  | .staIndirectY z => .mem (.indirectY z)
  | .staZeroPageX z => .mem (.zeroPageX z)
  | .staAbsoluteY a => .mem (.absoluteY a)
  | .staAbsoluteX a => .mem (.absoluteX a)
  | .stxZeroPage z => .mem (.zeroPage z)
  | .stxAbsolute a => .mem (.absolute a)
  | .stxZeroPageY z => .mem (.zeroPageY z)
  | .styZeroPage z => .mem (.zeroPage z)
  | .styAbsolute a => .mem (.absolute a)
  | .styZeroPageX z => .mem (.zeroPageX z)
  | .tax => .implied
  | .tay => .implied
  | .txa => .implied
  | .tya => .implied
  | .adcIndirectX z => .mem (.indirectX z)
  | .adcZeroPage z => .mem (.zeroPage z)
  | .adcImmediate v => .immediate v
  | .adcAbsolute a => .mem (.absolute a)
  | .adcIndirectY z => .mem (.indirectY z)
  | .adcZeroPageX z => .mem (.zeroPageX z)
  | .adcAbsoluteY a => .mem (.absoluteY a)
  | .adcAbsoluteX a => .mem (.absoluteX a)
  | .sbcIndirectX z => .mem (.indirectX z)
  | .sbcZeroPage z => .mem (.zeroPage z)
  | .sbcImmediate v => .immediate v
  | .sbcAbsolute a => .mem (.absolute a)
  | .sbcIndirectY z => .mem (.indirectY z)
  | .sbcZeroPageX z => .mem (.zeroPageX z)
  | .sbcAbsoluteY a => .mem (.absoluteY a)
  | .sbcAbsoluteX a => .mem (.absoluteX a)
  | .cmpIndirectX z => .mem (.indirectX z)
  | .cmpZeroPage z => .mem (.zeroPage z)
  | .cmpImmediate v => .immediate v
  | .cmpAbsolute a => .mem (.absolute a)
  | .cmpIndirectY z => .mem (.indirectY z)
  | .cmpZeroPageX z => .mem (.zeroPageX z)
  | .cmpAbsoluteY a => .mem (.absoluteY a)
  | .cmpAbsoluteX a => .mem (.absoluteX a)
  | .cpxImmediate v => .immediate v
  | .cpxZeroPage z => .mem (.zeroPage z)
  | .cpxAbsolute a => .mem (.absolute a)
  | .cpyImmediate v => .immediate v
  | .cpyZeroPage z => .mem (.zeroPage z)
  | .cpyAbsolute a => .mem (.absolute a)
  | .incZeroPage z => .mem (.zeroPage z)
  | .incAbsolute a => .mem (.absolute a)
  | .incZeroPageX z => .mem (.zeroPageX z)
  | .incAbsoluteX a => .mem (.absoluteX a)
  | .decZeroPage z => .mem (.zeroPage z)
  | .decAbsolute a => .mem (.absolute a)
  | .decZeroPageX z => .mem (.zeroPageX z)
  | .decAbsoluteX a => .mem (.absoluteX a)
  | .inx => .implied
  | .iny => .implied
  | .dex => .implied
  | .dey => .implied
  | .andIndirectX z => .mem (.indirectX z)
  | .andZeroPage z => .mem (.zeroPage z)
  | .andImmediate v => .immediate v
  | .andAbsolute a => .mem (.absolute a)
  | .andIndirectY z => .mem (.indirectY z)
  | .andZeroPageX z => .mem (.zeroPageX z)
  | .andAbsoluteY a => .mem (.absoluteY a)
  | .andAbsoluteX a => .mem (.absoluteX a)
  | .oraIndirectX z => .mem (.indirectX z)
  | .oraZeroPage z => .mem (.zeroPage z)
  | .oraImmediate v => .immediate v
  | .oraAbsolute a => .mem (.absolute a)
  | .oraIndirectY z => .mem (.indirectY z)
  | .oraZeroPageX z => .mem (.zeroPageX z)
  | .oraAbsoluteY a => .mem (.absoluteY a)
  | .oraAbsoluteX a => .mem (.absoluteX a)
  | .eorIndirectX z => .mem (.indirectX z)
  | .eorZeroPage z => .mem (.zeroPage z)
  | .eorImmediate v => .immediate v
  | .eorAbsolute a => .mem (.absolute a)
  | .eorIndirectY z => .mem (.indirectY z)
  | .eorZeroPageX z => .mem (.zeroPageX z)
  | .eorAbsoluteY a => .mem (.absoluteY a)
  | .eorAbsoluteX a => .mem (.absoluteX a)
  | .bitZeroPage z => .mem (.zeroPage z)
  | .bitAbsolute a => .mem (.absolute a)
  | .aslZeroPage z => .mem (.zeroPage z)
  | .aslAccumulator => .accumulator
  | .aslAbsolute a => .mem (.absolute a)
  | .aslZeroPageX z => .mem (.zeroPageX z)
  | .aslAbsoluteX a => .mem (.absoluteX a)
  | .lsrZeroPage z => .mem (.zeroPage z)
  | .lsrAccumulator => .accumulator
  | .lsrAbsolute a => .mem (.absolute a)
  | .lsrZeroPageX z => .mem (.zeroPageX z)
  | .lsrAbsoluteX a => .mem (.absoluteX a)
  | .rolZeroPage z => .mem (.zeroPage z)
  | .rolAccumulator => .accumulator
  | .rolAbsolute a => .mem (.absolute a)
  | .rolZeroPageX z => .mem (.zeroPageX z)
  | .rolAbsoluteX a => .mem (.absoluteX a)
  | .rorZeroPage z => .mem (.zeroPage z)
  | .rorAccumulator => .accumulator
  | .rorAbsolute a => .mem (.absolute a)
  | .rorZeroPageX z => .mem (.zeroPageX z)
  | .rorAbsoluteX a => .mem (.absoluteX a)
  | .bpl d => .immediate d
  | .bmi d => .immediate d
  | .bvc d => .immediate d
  | .bvs d => .immediate d
  | .bcc d => .immediate d
  | .bcs d => .immediate d
  | .bne d => .immediate d
  | .beq d => .immediate d
  | .jmpAbsolute a => .mem (.absolute a)
  | .jmpIndirect p => .mem (.indirect p)
  | .jsr a => .mem (.absolute a)
  | .rts => .implied
  | .brk => .implied
  | .rti => .implied
  | .pha => .implied
  | .php => .implied
  | .pla => .implied
  | .plp => .implied
  | .tsx => .implied
  | .txs => .implied
  | .clc => .implied
  | .sec => .implied
  | .cli => .implied
  | .sei => .implied
  | .cld => .implied
  | .sed => .implied
  | .clv => .implied
  | .nop => .implied

/-- The OperandMode of an instruction. -/
def Instr.mode (i : Instr) : Mode := i.operand.mode

end Sys2Proof
end

