-- ==== Sys2Proof/WellFormed.lean ====
section
/-! DEFINITION. What is well-formed before the machine runs: the parameters (00_scope.md R1) and the pairing of an operation with
an addressing mode (30_encoding.md R54, its table by mnemonic). Operand fields are typed bytes and words, every value of which
the spec admits (R52), so an instruction's only check is its pair. -/

namespace Sys2Proof

/-- R1: 1 <= MEM_SIZE <= 65536. The other parameters are legal by their types (R2 to R4). -/
def Config.wf (c : Config) : Bool := 1 ≤ c.memSize && c.memSize ≤ 65536

/-- The modes each operation has, written from R54's table by mnemonic. -/
def legalModes : Operation → List Mode
  | .lda => [.immediate, .zeroPage, .zeroPageX, .absolute, .absoluteX, .absoluteY, .indirectX, .indirectY]
  | .ldx => [.immediate, .zeroPage, .zeroPageY, .absolute, .absoluteY]
  | .ldy => [.immediate, .zeroPage, .zeroPageX, .absolute, .absoluteX]
  | .sta => [.zeroPage, .zeroPageX, .absolute, .absoluteX, .absoluteY, .indirectX, .indirectY]
  | .stx => [.zeroPage, .zeroPageY, .absolute]
  | .sty => [.zeroPage, .zeroPageX, .absolute]
  | .tax => [.implied]
  | .tay => [.implied]
  | .txa => [.implied]
  | .tya => [.implied]
  | .adc => [.immediate, .zeroPage, .zeroPageX, .absolute, .absoluteX, .absoluteY, .indirectX, .indirectY]
  | .sbc => [.immediate, .zeroPage, .zeroPageX, .absolute, .absoluteX, .absoluteY, .indirectX, .indirectY]
  | .cmp => [.immediate, .zeroPage, .zeroPageX, .absolute, .absoluteX, .absoluteY, .indirectX, .indirectY]
  | .cpx => [.immediate, .zeroPage, .absolute]
  | .cpy => [.immediate, .zeroPage, .absolute]
  | .inc => [.zeroPage, .zeroPageX, .absolute, .absoluteX]
  | .dec => [.zeroPage, .zeroPageX, .absolute, .absoluteX]
  | .inx => [.implied]
  | .iny => [.implied]
  | .dex => [.implied]
  | .dey => [.implied]
  | .and => [.immediate, .zeroPage, .zeroPageX, .absolute, .absoluteX, .absoluteY, .indirectX, .indirectY]
  | .ora => [.immediate, .zeroPage, .zeroPageX, .absolute, .absoluteX, .absoluteY, .indirectX, .indirectY]
  | .eor => [.immediate, .zeroPage, .zeroPageX, .absolute, .absoluteX, .absoluteY, .indirectX, .indirectY]
  | .bit => [.zeroPage, .absolute]
  | .asl => [.zeroPage, .zeroPageX, .absolute, .absoluteX, .accumulator]
  | .lsr => [.zeroPage, .zeroPageX, .absolute, .absoluteX, .accumulator]
  | .rol => [.zeroPage, .zeroPageX, .absolute, .absoluteX, .accumulator]
  | .ror => [.zeroPage, .zeroPageX, .absolute, .absoluteX, .accumulator]
  | .bpl => [.immediate]
  | .bmi => [.immediate]
  | .bvc => [.immediate]
  | .bvs => [.immediate]
  | .bcc => [.immediate]
  | .bcs => [.immediate]
  | .bne => [.immediate]
  | .beq => [.immediate]
  | .jmp => [.absolute, .indirect]
  | .jsr => [.absolute]
  | .rts => [.implied]
  | .brk => [.implied]
  | .rti => [.implied]
  | .pha => [.implied]
  | .php => [.implied]
  | .pla => [.implied]
  | .plp => [.implied]
  | .tsx => [.implied]
  | .txs => [.implied]
  | .clc => [.implied]
  | .sec => [.implied]
  | .cli => [.implied]
  | .sei => [.implied]
  | .cld => [.implied]
  | .sed => [.implied]
  | .clv => [.implied]
  | .nop => [.implied]

/-- The (Operation, OperandMode) pair is one of the opcode map's (R54). -/
def legalPair (op : Operation) (m : Mode) : Bool := (legalModes op).contains m

/-- A well-formed instruction pairs its operation with a mode that operation has. -/
def Instr.wf (i : Instr) : Bool := legalPair i.operation i.mode

/-- The 105 opcode values that decode to no instruction (30_encoding.md R55). -/
def undefinedOpcodes : List Byte :=
  [0x02, 0x03, 0x04, 0x07, 0x0B, 0x0C, 0x0F, 0x12, 0x13, 0x14, 0x17, 0x1A, 0x1B, 0x1C, 0x1F] ++
  [0x22, 0x23, 0x27, 0x2B, 0x2F, 0x32, 0x33, 0x34, 0x37, 0x3A, 0x3B, 0x3C, 0x3F, 0x42, 0x43] ++
  [0x44, 0x47, 0x4B, 0x4F, 0x52, 0x53, 0x54, 0x57, 0x5A, 0x5B, 0x5C, 0x5F, 0x62, 0x63, 0x64] ++
  [0x67, 0x6B, 0x6F, 0x72, 0x73, 0x74, 0x77, 0x7A, 0x7B, 0x7C, 0x7F, 0x80, 0x82, 0x83, 0x87] ++
  [0x89, 0x8B, 0x8F, 0x92, 0x93, 0x97, 0x9B, 0x9C, 0x9E, 0x9F, 0xA3, 0xA7, 0xAB, 0xAF, 0xB2] ++
  [0xB3, 0xB7, 0xBB, 0xBF, 0xC2, 0xC3, 0xC7, 0xCB, 0xCF, 0xD2, 0xD3, 0xD4, 0xD7, 0xDA, 0xDB] ++
  [0xDC, 0xDF, 0xE2, 0xE3, 0xE7, 0xEB, 0xEF, 0xF2, 0xF3, 0xF4, 0xF7, 0xFA, 0xFB, 0xFC, 0xFF]

end Sys2Proof
end

