-- ==== Sys2Proof/Decode.lean ====
section
/-! DEFINITION. The decoder, total on any bytes (30_encoding.md R50 to R57), and the encoder. The opcode byte alone selects the
instruction and the shape of its operand (R54, R57); an undefined opcode and a truncated instruction are refused by name. -/

namespace Sys2Proof

/-- The 16-bit value of two bytes, `hi ++ lo` (00_scope.md section 5, 20_memory.md R35). -/
def joinBytes (hi lo : Byte) : Word := hi ++ lo

/-- Bits 7:0 of a word. -/
def loByte (w : Word) : Byte := w.extractLsb' 0 8

/-- Bits 15:8 of a word. -/
def hiByte (w : Word) : Byte := w.extractLsb' 8 8

/-- What an opcode selects: an instruction with no operand byte, or one still waiting for its operand byte or its operand word
(R50, R51). Under IMM_WIDTH = 2 an immediate operand is still one byte: the second is never read (R53). -/
inductive Form where
  | bare (i : Instr)
  | byte (f : Byte → Instr)
  | word (f : Word → Instr)

/-! The opcode map, one row of R54's grid each: the row is the opcode's high nibble, the column its low nibble, `none` the
grid's dash. -/

/-- Opcodes 0x00 to 0x0F (R54). -/
def opcodeRow0 : List (Option Form) :=
  [some (.bare .brk), some (.byte .oraIndirectX), none, none,
   none, some (.byte .oraZeroPage), some (.byte .aslZeroPage), none,
   some (.bare .php), some (.byte .oraImmediate), some (.bare .aslAccumulator), none,
   none, some (.word .oraAbsolute), some (.word .aslAbsolute), none]

/-- Opcodes 0x10 to 0x1F (R54). -/
def opcodeRow1 : List (Option Form) :=
  [some (.byte .bpl), some (.byte .oraIndirectY), none, none,
   none, some (.byte .oraZeroPageX), some (.byte .aslZeroPageX), none,
   some (.bare .clc), some (.word .oraAbsoluteY), none, none,
   none, some (.word .oraAbsoluteX), some (.word .aslAbsoluteX), none]

/-- Opcodes 0x20 to 0x2F (R54). -/
def opcodeRow2 : List (Option Form) :=
  [some (.word .jsr), some (.byte .andIndirectX), none, none,
   some (.byte .bitZeroPage), some (.byte .andZeroPage), some (.byte .rolZeroPage), none,
   some (.bare .plp), some (.byte .andImmediate), some (.bare .rolAccumulator), none,
   some (.word .bitAbsolute), some (.word .andAbsolute), some (.word .rolAbsolute), none]

/-- Opcodes 0x30 to 0x3F (R54). -/
def opcodeRow3 : List (Option Form) :=
  [some (.byte .bmi), some (.byte .andIndirectY), none, none,
   none, some (.byte .andZeroPageX), some (.byte .rolZeroPageX), none,
   some (.bare .sec), some (.word .andAbsoluteY), none, none,
   none, some (.word .andAbsoluteX), some (.word .rolAbsoluteX), none]

/-- Opcodes 0x40 to 0x4F (R54). -/
def opcodeRow4 : List (Option Form) :=
  [some (.bare .rti), some (.byte .eorIndirectX), none, none,
   none, some (.byte .eorZeroPage), some (.byte .lsrZeroPage), none,
   some (.bare .pha), some (.byte .eorImmediate), some (.bare .lsrAccumulator), none,
   some (.word .jmpAbsolute), some (.word .eorAbsolute), some (.word .lsrAbsolute), none]

/-- Opcodes 0x50 to 0x5F (R54). -/
def opcodeRow5 : List (Option Form) :=
  [some (.byte .bvc), some (.byte .eorIndirectY), none, none,
   none, some (.byte .eorZeroPageX), some (.byte .lsrZeroPageX), none,
   some (.bare .cli), some (.word .eorAbsoluteY), none, none,
   none, some (.word .eorAbsoluteX), some (.word .lsrAbsoluteX), none]

/-- Opcodes 0x60 to 0x6F (R54). -/
def opcodeRow6 : List (Option Form) :=
  [some (.bare .rts), some (.byte .adcIndirectX), none, none,
   none, some (.byte .adcZeroPage), some (.byte .rorZeroPage), none,
   some (.bare .pla), some (.byte .adcImmediate), some (.bare .rorAccumulator), none,
   some (.word .jmpIndirect), some (.word .adcAbsolute), some (.word .rorAbsolute), none]

/-- Opcodes 0x70 to 0x7F (R54). -/
def opcodeRow7 : List (Option Form) :=
  [some (.byte .bvs), some (.byte .adcIndirectY), none, none,
   none, some (.byte .adcZeroPageX), some (.byte .rorZeroPageX), none,
   some (.bare .sei), some (.word .adcAbsoluteY), none, none,
   none, some (.word .adcAbsoluteX), some (.word .rorAbsoluteX), none]

/-- Opcodes 0x80 to 0x8F (R54). -/
def opcodeRow8 : List (Option Form) :=
  [none, some (.byte .staIndirectX), none, none,
   some (.byte .styZeroPage), some (.byte .staZeroPage), some (.byte .stxZeroPage), none,
   some (.bare .dey), none, some (.bare .txa), none,
   some (.word .styAbsolute), some (.word .staAbsolute), some (.word .stxAbsolute), none]

/-- Opcodes 0x90 to 0x9F (R54). -/
def opcodeRow9 : List (Option Form) :=
  [some (.byte .bcc), some (.byte .staIndirectY), none, none,
   some (.byte .styZeroPageX), some (.byte .staZeroPageX), some (.byte .stxZeroPageY), none,
   some (.bare .tya), some (.word .staAbsoluteY), some (.bare .txs), none,
   none, some (.word .staAbsoluteX), none, none]

/-- Opcodes 0xA0 to 0xAF (R54). -/
def opcodeRowA : List (Option Form) :=
  [some (.byte .ldyImmediate), some (.byte .ldaIndirectX), some (.byte .ldxImmediate), none,
   some (.byte .ldyZeroPage), some (.byte .ldaZeroPage), some (.byte .ldxZeroPage), none,
   some (.bare .tay), some (.byte .ldaImmediate), some (.bare .tax), none,
   some (.word .ldyAbsolute), some (.word .ldaAbsolute), some (.word .ldxAbsolute), none]

/-- Opcodes 0xB0 to 0xBF (R54). -/
def opcodeRowB : List (Option Form) :=
  [some (.byte .bcs), some (.byte .ldaIndirectY), none, none,
   some (.byte .ldyZeroPageX), some (.byte .ldaZeroPageX), some (.byte .ldxZeroPageY), none,
   some (.bare .clv), some (.word .ldaAbsoluteY), some (.bare .tsx), none,
   some (.word .ldyAbsoluteX), some (.word .ldaAbsoluteX), some (.word .ldxAbsoluteY), none]

/-- Opcodes 0xC0 to 0xCF (R54). -/
def opcodeRowC : List (Option Form) :=
  [some (.byte .cpyImmediate), some (.byte .cmpIndirectX), none, none,
   some (.byte .cpyZeroPage), some (.byte .cmpZeroPage), some (.byte .decZeroPage), none,
   some (.bare .iny), some (.byte .cmpImmediate), some (.bare .dex), none,
   some (.word .cpyAbsolute), some (.word .cmpAbsolute), some (.word .decAbsolute), none]

/-- Opcodes 0xD0 to 0xDF (R54). -/
def opcodeRowD : List (Option Form) :=
  [some (.byte .bne), some (.byte .cmpIndirectY), none, none,
   none, some (.byte .cmpZeroPageX), some (.byte .decZeroPageX), none,
   some (.bare .cld), some (.word .cmpAbsoluteY), none, none,
   none, some (.word .cmpAbsoluteX), some (.word .decAbsoluteX), none]

/-- Opcodes 0xE0 to 0xEF (R54). -/
def opcodeRowE : List (Option Form) :=
  [some (.byte .cpxImmediate), some (.byte .sbcIndirectX), none, none,
   some (.byte .cpxZeroPage), some (.byte .sbcZeroPage), some (.byte .incZeroPage), none,
   some (.bare .inx), some (.byte .sbcImmediate), some (.bare .nop), none,
   some (.word .cpxAbsolute), some (.word .sbcAbsolute), some (.word .incAbsolute), none]

/-- Opcodes 0xF0 to 0xFF (R54). -/
def opcodeRowF : List (Option Form) :=
  [some (.byte .beq), some (.byte .sbcIndirectY), none, none,
   none, some (.byte .sbcZeroPageX), some (.byte .incZeroPageX), none,
   some (.bare .sed), some (.word .sbcAbsoluteY), none, none,
   none, some (.word .sbcAbsoluteX), some (.word .incAbsoluteX), none]

/-- R54's grid, its rows in order. -/
def opcodeGrid : List (List (Option Form)) :=
  [opcodeRow0, opcodeRow1, opcodeRow2, opcodeRow3, opcodeRow4, opcodeRow5, opcodeRow6, opcodeRow7,
   opcodeRow8, opcodeRow9, opcodeRowA, opcodeRowB, opcodeRowC, opcodeRowD, opcodeRowE, opcodeRowF]

/-- The cell of the grid at an opcode, `none` for an undefined opcode (R54, R55). -/
def formOf (op : Byte) : Option Form :=
  ((opcodeGrid[op.toNat / 16]?).bind (fun row => row[op.toNat % 16]?)).join

/-- An instruction of the form, with a zero operand: it shows the form's operation and mode, which no operand changes. -/
def Form.sample : Form → Instr
  | .bare i => i
  | .byte f => f 0
  | .word f => f 0

/-- `decode(op)` as R54 gives it: the (OperandMode, Operation) pair, or none for an undefined opcode. -/
def decodeOpcode (op : Byte) : Option (Mode × Operation) :=
  (formOf op).map (fun f => (f.sample.mode, f.sample.operation))

/-- IMM_WIDTH as a number of bytes (00_scope.md R2). -/
def immBytes : ImmWidth → Nat
  | .one => 1
  | .two => 2

/-- The number of operand bytes of a mode (R51). -/
def modeWidth (w : ImmWidth) : Mode → Nat
  | .implied => 0
  | .accumulator => 0
  | .immediate => immBytes w
  | .zeroPage => 1
  | .zeroPageX => 1
  | .zeroPageY => 1
  | .indirectX => 1
  | .indirectY => 1
  | .absolute => 2
  | .absoluteX => 2
  | .absoluteY => 2
  | .indirect => 2

/-- The length of an instruction in bytes (R51, R57). -/
def Instr.length (w : ImmWidth) (i : Instr) : Nat := 1 + modeWidth w i.mode

/-- R57: the length told from the opcode alone; an undefined opcode has none. -/
def opcodeLength (w : ImmWidth) (op : Byte) : Option Nat :=
  (decodeOpcode op).map (fun mo => 1 + modeWidth w mo.1)

/-- Why bytes are no instruction. -/
inductive DecodeError where
  /-- The first byte is one of the 105 opcodes of R55. -/
  | undefinedOpcode (op : Byte)
  /-- The bytes end before the opcode or before an operand byte that the instruction reads. -/
  | truncated
  deriving DecidableEq, Repr

/-- The operand of a form, taken from the bytes after the opcode, low byte first (R52). -/
def Form.decodeOperand : Form → List Byte → Except DecodeError Instr
  | .bare i, _ => .ok i
  | .byte f, b :: _ => .ok (f b)
  | .byte _, [] => .error .truncated
  | .word f, lo :: hi :: _ => .ok (f (joinBytes hi lo))
  | .word _, _ => .error .truncated

/-- The instruction at the head of a list of bytes, and the bytes after it. The byte that IMM_WIDTH = 2 adds after an immediate
operand is skipped unread, and may be missing (R53). -/
def decode (w : ImmWidth) : List Byte → Except DecodeError (Instr × List Byte)
  | [] => .error .truncated
  | op :: bytes => match formOf op with
    | none => .error (.undefinedOpcode op)
    | some f => match f.decodeOperand bytes with
      | .error e => .error e
      | .ok i => .ok (i, bytes.drop (modeWidth w i.mode))

/-- The opcode byte of an instruction (R54, its table by mnemonic). -/
def Instr.opcode : Instr → Byte
  | .ldaIndirectX _ => 0xA1#8
  | .ldaZeroPage _ => 0xA5#8
  | .ldaImmediate _ => 0xA9#8
  | .ldaAbsolute _ => 0xAD#8
  | .ldaIndirectY _ => 0xB1#8
  | .ldaZeroPageX _ => 0xB5#8
  | .ldaAbsoluteY _ => 0xB9#8
  | .ldaAbsoluteX _ => 0xBD#8
  | .ldxImmediate _ => 0xA2#8
  | .ldxZeroPage _ => 0xA6#8
  | .ldxAbsolute _ => 0xAE#8
  | .ldxZeroPageY _ => 0xB6#8
  | .ldxAbsoluteY _ => 0xBE#8
  | .ldyImmediate _ => 0xA0#8
  | .ldyZeroPage _ => 0xA4#8
  | .ldyAbsolute _ => 0xAC#8
  | .ldyZeroPageX _ => 0xB4#8
  | .ldyAbsoluteX _ => 0xBC#8
  | .staIndirectX _ => 0x81#8
  | .staZeroPage _ => 0x85#8
  | .staAbsolute _ => 0x8D#8
  | .staIndirectY _ => 0x91#8
  | .staZeroPageX _ => 0x95#8
  | .staAbsoluteY _ => 0x99#8
  | .staAbsoluteX _ => 0x9D#8
  | .stxZeroPage _ => 0x86#8
  | .stxAbsolute _ => 0x8E#8
  | .stxZeroPageY _ => 0x96#8
  | .styZeroPage _ => 0x84#8
  | .styAbsolute _ => 0x8C#8
  | .styZeroPageX _ => 0x94#8
  | .tax => 0xAA#8
  | .tay => 0xA8#8
  | .txa => 0x8A#8
  | .tya => 0x98#8
  | .adcIndirectX _ => 0x61#8
  | .adcZeroPage _ => 0x65#8
  | .adcImmediate _ => 0x69#8
  | .adcAbsolute _ => 0x6D#8
  | .adcIndirectY _ => 0x71#8
  | .adcZeroPageX _ => 0x75#8
  | .adcAbsoluteY _ => 0x79#8
  | .adcAbsoluteX _ => 0x7D#8
  | .sbcIndirectX _ => 0xE1#8
  | .sbcZeroPage _ => 0xE5#8
  | .sbcImmediate _ => 0xE9#8
  | .sbcAbsolute _ => 0xED#8
  | .sbcIndirectY _ => 0xF1#8
  | .sbcZeroPageX _ => 0xF5#8
  | .sbcAbsoluteY _ => 0xF9#8
  | .sbcAbsoluteX _ => 0xFD#8
  | .cmpIndirectX _ => 0xC1#8
  | .cmpZeroPage _ => 0xC5#8
  | .cmpImmediate _ => 0xC9#8
  | .cmpAbsolute _ => 0xCD#8
  | .cmpIndirectY _ => 0xD1#8
  | .cmpZeroPageX _ => 0xD5#8
  | .cmpAbsoluteY _ => 0xD9#8
  | .cmpAbsoluteX _ => 0xDD#8
  | .cpxImmediate _ => 0xE0#8
  | .cpxZeroPage _ => 0xE4#8
  | .cpxAbsolute _ => 0xEC#8
  | .cpyImmediate _ => 0xC0#8
  | .cpyZeroPage _ => 0xC4#8
  | .cpyAbsolute _ => 0xCC#8
  | .incZeroPage _ => 0xE6#8
  | .incAbsolute _ => 0xEE#8
  | .incZeroPageX _ => 0xF6#8
  | .incAbsoluteX _ => 0xFE#8
  | .decZeroPage _ => 0xC6#8
  | .decAbsolute _ => 0xCE#8
  | .decZeroPageX _ => 0xD6#8
  | .decAbsoluteX _ => 0xDE#8
  | .inx => 0xE8#8
  | .iny => 0xC8#8
  | .dex => 0xCA#8
  | .dey => 0x88#8
  | .andIndirectX _ => 0x21#8
  | .andZeroPage _ => 0x25#8
  | .andImmediate _ => 0x29#8
  | .andAbsolute _ => 0x2D#8
  | .andIndirectY _ => 0x31#8
  | .andZeroPageX _ => 0x35#8
  | .andAbsoluteY _ => 0x39#8
  | .andAbsoluteX _ => 0x3D#8
  | .oraIndirectX _ => 0x01#8
  | .oraZeroPage _ => 0x05#8
  | .oraImmediate _ => 0x09#8
  | .oraAbsolute _ => 0x0D#8
  | .oraIndirectY _ => 0x11#8
  | .oraZeroPageX _ => 0x15#8
  | .oraAbsoluteY _ => 0x19#8
  | .oraAbsoluteX _ => 0x1D#8
  | .eorIndirectX _ => 0x41#8
  | .eorZeroPage _ => 0x45#8
  | .eorImmediate _ => 0x49#8
  | .eorAbsolute _ => 0x4D#8
  | .eorIndirectY _ => 0x51#8
  | .eorZeroPageX _ => 0x55#8
  | .eorAbsoluteY _ => 0x59#8
  | .eorAbsoluteX _ => 0x5D#8
  | .bitZeroPage _ => 0x24#8
  | .bitAbsolute _ => 0x2C#8
  | .aslZeroPage _ => 0x06#8
  | .aslAccumulator => 0x0A#8
  | .aslAbsolute _ => 0x0E#8
  | .aslZeroPageX _ => 0x16#8
  | .aslAbsoluteX _ => 0x1E#8
  | .lsrZeroPage _ => 0x46#8
  | .lsrAccumulator => 0x4A#8
  | .lsrAbsolute _ => 0x4E#8
  | .lsrZeroPageX _ => 0x56#8
  | .lsrAbsoluteX _ => 0x5E#8
  | .rolZeroPage _ => 0x26#8
  | .rolAccumulator => 0x2A#8
  | .rolAbsolute _ => 0x2E#8
  | .rolZeroPageX _ => 0x36#8
  | .rolAbsoluteX _ => 0x3E#8
  | .rorZeroPage _ => 0x66#8
  | .rorAccumulator => 0x6A#8
  | .rorAbsolute _ => 0x6E#8
  | .rorZeroPageX _ => 0x76#8
  | .rorAbsoluteX _ => 0x7E#8
  | .bpl _ => 0x10#8
  | .bmi _ => 0x30#8
  | .bvc _ => 0x50#8
  | .bvs _ => 0x70#8
  | .bcc _ => 0x90#8
  | .bcs _ => 0xB0#8
  | .bne _ => 0xD0#8
  | .beq _ => 0xF0#8
  | .jmpAbsolute _ => 0x4C#8
  | .jmpIndirect _ => 0x6C#8
  | .jsr _ => 0x20#8
  | .rts => 0x60#8
  | .brk => 0x00#8
  | .rti => 0x40#8
  | .pha => 0x48#8
  | .php => 0x08#8
  | .pla => 0x68#8
  | .plp => 0x28#8
  | .tsx => 0xBA#8
  | .txs => 0x9A#8
  | .clc => 0x18#8
  | .sec => 0x38#8
  | .cli => 0x58#8
  | .sei => 0x78#8
  | .cld => 0xD8#8
  | .sed => 0xF8#8
  | .clv => 0xB8#8
  | .nop => 0xEA#8

/-- The operand bytes of a memory operand, low byte first (R51, R52). -/
def MemOperand.bytes : MemOperand → List Byte
  | .zeroPage z => [z]
  | .zeroPageX z => [z]
  | .zeroPageY z => [z]
  | .indirectX z => [z]
  | .indirectY z => [z]
  | .absolute a => [loByte a, hiByte a]
  | .absoluteX a => [loByte a, hiByte a]
  | .absoluteY a => [loByte a, hiByte a]
  | .indirect p => [loByte p, hiByte p]

/-- The operand bytes the machine reads (R51; an immediate's second byte is never read, R53). -/
def Operand.bytes : Operand → List Byte
  | .implied => []
  | .accumulator => []
  | .immediate v => [v]
  | .mem m => m.bytes

/-- The bytes of an instruction that the machine reads: its opcode and its operand bytes. -/
def Instr.bytes (i : Instr) : List Byte := i.opcode :: i.operand.bytes

/-- The byte an assembler puts after an immediate operand under IMM_WIDTH = 2 (R59). -/
def padBytes (w : ImmWidth) : Operand → List Byte
  | .immediate _ => List.replicate (immBytes w - 1) 0
  | .implied => []
  | .accumulator => []
  | .mem _ => []

/-- The whole encoding of an instruction, pad byte included (R50, R51, R59). -/
def encode (w : ImmWidth) (i : Instr) : List Byte := i.bytes ++ padBytes w i.operand

/-- The three bytes of an instruction whose bits are `w`, numbered as spec/opcode_table.json numbers them: bits 7:0 are the opcode,
bits 15:8 the first operand byte, bits 23:16 the second. Bits from `nbits` up are zero. -/
def tableBytes (nbits w : Nat) : List Byte :=
  let v := w % 2 ^ nbits
  [BitVec.ofNat 8 v, BitVec.ofNat 8 (v / 256), BitVec.ofNat 8 (v / 65536)]

/-- The decoder's answer on an opcode-table word. IMM_WIDTH does not change which instruction it is. -/
def decodeTableWord (nbits w : Nat) : Option Instr :=
  match decode .one (tableBytes nbits w) with
  | .ok (i, _) => some i
  | .error _ => none

end Sys2Proof
end

