-- ==== Sys2Proof/Machine/Flags.lean ====
section
/-! DEFINITION. The bits of P (10_state.md R16) and every flag computation the spec gives: setNZ (R25), the adder
(42_arithmetic.md R120), the comparison (R123), BIT (43_logical.md R143) and the shifts (44_shift_rotate.md R151 to R154). All of
it works on bytes alone. -/

namespace Sys2Proof.Machine

/-- The flags of P, by name (R16): carry, zero, interrupt-disable, decimal, break, unused, overflow, negative. -/
inductive Flag where
  | c
  | z
  | i
  | d
  | b
  | u
  | v
  | n
  deriving DecidableEq, Repr

/-- The bit of P that holds a flag (R16). -/
def flagBit : Flag → Nat
  | .c => 0
  | .z => 1
  | .i => 2
  | .d => 3
  | .b => 4
  | .u => 5
  | .v => 6
  | .n => 7

/-- A flag's value in a status byte. -/
def getFlag (p : Byte) (f : Flag) : Bool := p.getLsbD (flagBit f)

/-- The byte whose only set bit is bit `n`. -/
def bitMask (n : Nat) : Byte := 1#8 <<< n

/-- A status byte with one flag written and every other bit kept (R24). -/
def putFlag (p : Byte) (f : Flag) (v : Bool) : Byte :=
  if v then p ||| bitMask (flagBit f) else p &&& ~~~(bitMask (flagBit f))

/-- setNZ (R25): Z tells whether the result is zero, N is its bit 7. -/
def setNZ (p r : Byte) : Byte := putFlag (putFlag p .z (r == 0)) .n (r.getLsbD 7)

/-- A status byte as PHP and BRK push it, with B and the unused bit set (R23). -/
def pushedStatus (p : Byte) : Byte := p ||| 0x30#8

/-- A status byte as PLP and RTI write it, with B and the unused bit cleared (R23). -/
def pulledStatus (p : Byte) : Byte := p &&& 0xCF#8

/-- What the adder returns: the sum mod 256, the carry out of bit 7 and the signed overflow (R120). -/
structure Sum where
  r : Byte
  carry : Bool
  overflow : Bool
  deriving DecidableEq, Repr

/-- `add8` of 42_arithmetic.md R120. -/
def add8 (a b : Byte) (cin : Bool) : Sum :=
  let s := a.toNat + b.toNat + cin.toNat
  let r := BitVec.ofNat 8 s
  { r := r, carry := decide (256 ≤ s), overflow := ((a ^^^ r) &&& (b ^^^ r) &&& 0x80#8) != 0 }

/-- The flags ADC and SBC write from a sum: C, V, then N and Z (R121, R122). -/
def sumFlags (p : Byte) (t : Sum) : Byte :=
  setNZ (putFlag (putFlag p .c t.carry) .v t.overflow) t.r

/-- `compare(reg, m)` (R123): C tells whether the register is at least the operand, N and Z come from the difference. -/
def compareFlags (p reg m : Byte) : Byte := setNZ (putFlag p .c (decide (m ≤ reg))) (reg - m)

/-- BIT's flags (R143): Z from A and the operand, N and V from the operand's bits 7 and 6. -/
def bitFlags (p a m : Byte) : Byte :=
  putFlag (putFlag (putFlag p .z ((a &&& m) == 0)) .n (m.getLsbD 7)) .v (m.getLsbD 6)

/-- A shift's result and the bit it moves into C. -/
structure Shifted where
  r : Byte
  carry : Bool
  deriving DecidableEq, Repr

/-- ASL (44_shift_rotate.md R151). The carry in is not used. -/
def shiftAsl (v : Byte) (_cin : Bool) : Shifted := { r := v <<< 1, carry := v.getLsbD 7 }

/-- LSR (R152). The carry in is not used. -/
def shiftLsr (v : Byte) (_cin : Bool) : Shifted := { r := v >>> 1, carry := v.getLsbD 0 }

/-- ROL (R153). -/
def shiftRol (v : Byte) (cin : Bool) : Shifted :=
  { r := (v <<< 1) ||| (if cin then 0x01#8 else 0), carry := v.getLsbD 7 }

/-- ROR (R154). -/
def shiftRor (v : Byte) (cin : Bool) : Shifted :=
  { r := (v >>> 1) ||| (if cin then 0x80#8 else 0), carry := v.getLsbD 0 }

/-- The flags a shift writes: C, then N and Z (R151 to R154). -/
def shiftFlags (p : Byte) (t : Shifted) : Byte := setNZ (putFlag p .c t.carry) t.r

end Sys2Proof.Machine
end

