-- ==== Sys2Proof/Machine/State.lean ====
section
/-! DEFINITION. The state of the machine (10_state.md), why a step can stop (60_exceptions.md R200, R206), and the state after
reset (10_state.md R29, 70_reset_and_hazards.md R231). -/

namespace Sys2Proof.Machine

/-- Memory as a list of (address, byte) cells, addresses strictly rising, holding no byte equal to what an unlisted address reads
as (`Memory.blank`). `Memory.wf` states that form. -/
abbrev Memory := List Host.Cell

/-- The MachineState: the register file (10_state.md R10) and memory (R28), with the machine's parameters beside them as data that
no step writes (R26; DESIGN CHOICE, log entry 1). -/
structure State where
  /-- The parameters MEM_SIZE, IMM_WIDTH, INDY_INDEX and DECIMAL_MODE (00_scope.md R1 to R4). -/
  cfg : Config
  /-- A, the accumulator (R11). -/
  a : Byte
  /-- X, an index register (R12). -/
  x : Byte
  /-- Y, an index register (R13). -/
  y : Byte
  /-- P, the status register, one flag a bit (R16). -/
  p : Byte
  /-- SP, the low byte of the next free stack byte's address (R14). -/
  sp : Byte
  /-- PC, the program counter (R15). -/
  pc : Word
  /-- Memory, at most MEM_SIZE bytes (20_memory.md R30). -/
  mem : Memory
  deriving DecidableEq, Repr

/-- The error kinds of 60_exceptions.md R200. -/
inductive Fault where
  /-- An access at an address at or above MEM_SIZE (R201), with the lowest address that is out of range (20_memory.md R32). Raised
  by the opcode fetch, operand fetch, pointer read, operand-value read, store, push, pull and vector read. Safe: it is the spec's own
  fault. -/
  | outOfBounds (addr : Nat)
  /-- The fetched byte is one of the 105 undefined opcodes (R202). Raised by the decode. Safe: it is the spec's own fault. -/
  | undefinedOpcode (op : Byte)
  /-- Reserved by R203 and raised by nothing. Safe. -/
  | executionError
  deriving DecidableEq, Repr

/-- Why a step has no meaning. -/
inductive Refusal where
  /-- ADC or SBC with P.D = 1 while DECIMAL_MODE = refuse (60_exceptions.md R206). Raised by those two operations only. Safe: it is
  the spec's own refusal. -/
  | decimalArithmetic
  /-- An instruction that has no meaning yet, by its mnemonic. Raised by no arm of `exec`: every instruction has its meaning. Safe. -/
  | notModelled (mnemonic : String)
  deriving DecidableEq, Repr

/-- The machine right after reset with nothing placed: every register zero and PC at 0x0000 (10_state.md R29,
70_reset_and_hazards.md R231, R233), the default parameters (00_scope.md R1 to R4; DESIGN CHOICE, log entry 2), and nothing listed in memory, that
is `load` of an empty image with FILL = 0 (DESIGN CHOICE, log entry 3). -/
def State.reset : State :=
  { cfg := Config.default, a := 0, x := 0, y := 0, p := 0, sp := 0, pc := 0, mem := [] }

end Sys2Proof.Machine
end

