-- ==== Sys2Proof/Machine/Ops.lean ====
section
/-! DEFINITION. The named operations over memory and registers: the three memory transactions (20_memory.md R31 to R33), register
writes, the stack (47_stack.md R180), entering a trap and returning from one (60_exceptions.md R209, R210), and how an operation's
result becomes the outcome of a step. A step that stops returns no state, so a fault keeps none of its writes
(40_sequencer_addressing.md R87; DEDUCED, log entry 6). -/

namespace Sys2Proof.Machine

/-- What executing an instruction answers. -/
abbrev Out := Host.Outcome State Fault Refusal

/-! ### Memory -/

/-- What an address that memory does not list reads as (DESIGN CHOICE, log entry 3). -/
def Memory.blank : Byte := 0

/-- The byte at an address. -/
def Memory.get : Memory → Nat → Byte
  | [], _ => Memory.blank
  | (k, b) :: m, a => if k = a then b else Memory.get m a

/-- Memory with one byte written, its canonical form kept: writing the blank byte removes the cell. -/
def Memory.set : Memory → Nat → Byte → Memory
  | [], a, v => if v = Memory.blank then [] else [(a, v)]
  | (k, b) :: m, a, v =>
    if a < k then (if v = Memory.blank then (k, b) :: m else (a, v) :: (k, b) :: m)
    else if a = k then (if v = Memory.blank then m else (a, v) :: m)
    else (k, b) :: Memory.set m a v

/-- Every address of the list is above `lo`, and the addresses rise strictly from there. -/
def Memory.risesAbove : Nat → Memory → Bool
  | _, [] => true
  | lo, (k, _) :: m => decide (lo < k) && Memory.risesAbove k m

/-- The addresses rise strictly. -/
def Memory.sorted : Memory → Bool
  | [] => true
  | (k, _) :: m => Memory.risesAbove k m

/-- The canonical form: addresses strictly rising, no blank byte listed. -/
def Memory.wf (m : Memory) : Bool := Memory.sorted m && m.all (fun c => c.2 != Memory.blank)

/-- Every listed address is one of the `size` addresses the memory has (20_memory.md R30). -/
def Memory.within (m : Memory) (size : Nat) : Bool := m.all (fun c => decide (c.1 < size))

/-- `MemRead(addr, 1)` (R31). -/
def memRead (s : State) (a : Nat) : Except Fault Byte :=
  if a < s.cfg.memSize then .ok (s.mem.get a) else .error (.outOfBounds a)

/-- `MemRead(addr, 2)` (R32): little-endian, no wrap, the low byte's address checked first. -/
def memReadWord (s : State) (a : Nat) : Except Fault Word :=
  match memRead s a with
  | .error f => .error f
  | .ok lo => match memRead s (a + 1) with
    | .error f => .error f
    | .ok hi => .ok (joinBytes hi lo)

/-- `MemWrite(addr, 1, v)` (R33). -/
def memWrite (s : State) (a : Nat) (v : Byte) : Except Fault State :=
  if a < s.cfg.memSize then .ok { s with mem := s.mem.set a v } else .error (.outOfBounds a)

/-! ### Registers -/

/-- A register write that sets no flag. -/
def State.setA (s : State) (v : Byte) : State := { s with a := v }
def State.setX (s : State) (v : Byte) : State := { s with x := v }
def State.setY (s : State) (v : Byte) : State := { s with y := v }
def State.setP (s : State) (v : Byte) : State := { s with p := v }
def State.setSp (s : State) (v : Byte) : State := { s with sp := v }
def State.setPc (s : State) (v : Word) : State := { s with pc := v }

/-- setNZ on the machine's P (10_state.md R25). -/
def State.setNZ (s : State) (r : Byte) : State := s.setP (Machine.setNZ s.p r)

/-- One flag of the machine's P. -/
def State.flag (s : State) (f : Flag) : Bool := getFlag s.p f

/-- One flag written, the others kept. -/
def State.setFlag (s : State) (f : Flag) (v : Bool) : State := s.setP (putFlag s.p f v)

/-! ### The stack -/

/-- Where a push stores and, once SP is incremented, a pull reads: `0x0100 + SP` (47_stack.md R180). -/
def stackAddr (sp : Byte) : Nat := 0x0100 + sp.toNat

/-- `push(v)` (R180). -/
def push (v : Byte) (s : State) : Except Fault State :=
  match memWrite s (stackAddr s.sp) v with
  | .error f => .error f
  | .ok t => .ok (t.setSp (s.sp + 255#8))

/-- `pull()` (R180). -/
def pull (s : State) : Except Fault (Byte × State) :=
  let t := s.setSp (s.sp + 1#8)
  match memRead t (stackAddr t.sp) with
  | .error f => .error f
  | .ok b => .ok (b, t)

/-- Two pushes, the high byte first, so that the word lies little-endian in memory (46_jump_subroutine_break.md R171, R173). -/
def pushWord (w : Word) (s : State) : Except Fault State :=
  match push (hiByte w) s with
  | .error f => .error f
  | .ok t => push (loByte w) t

/-- Two pulls, the low byte first (R172, R174). -/
def pullWord (s : State) : Except Fault (Word × State) :=
  match pull s with
  | .error f => .error f
  | .ok (lo, t) => match pull t with
    | .error f => .error f
    | .ok (hi, u) => .ok (joinBytes hi lo, u)

/-! ### Trap entry and return -/

/-- The address of the BRK vector (20_memory.md R38). -/
def brkVector : Nat := 0xFFFE

/-- Entering the BRK handler (60_exceptions.md R209, 46_jump_subroutine_break.md R173): the return address and the status are pushed,
I is set, and PC is read from the vector. -/
def takeBreak (ret : Word) (s : State) : Except Fault State :=
  match pushWord ret s with
  | .error f => .error f
  | .ok t => match push (pushedStatus t.p) t with
    | .error f => .error f
    | .ok u => match memReadWord u brkVector with
      | .error f => .error f
      | .ok target => .ok ((u.setFlag .i true).setPc target)

/-- Returning from the handler (60_exceptions.md R210, 46_jump_subroutine_break.md R174): P, then PC, from the stack. -/
def returnFromBreak (s : State) : Except Fault State :=
  match pull s with
  | .error f => .error f
  | .ok (p, t) => match pullWord (t.setP (pulledStatus p)) with
    | .error f => .error f
    | .ok (target, u) => .ok (u.setPc target)

/-! ### Outcomes -/

/-- The outcome of an operation that can only fault (40_sequencer_addressing.md R87). -/
def finish : Except Fault State → Out
  | .error f => .fault f
  | .ok t => .next t

/-- The numeric code of a fault (60_exceptions.md R200). -/
def Fault.code : Fault → Nat
  | .outOfBounds _ => 1
  | .undefinedOpcode _ => 2
  | .executionError => 3

end Sys2Proof.Machine
end

