-- ==== Sys2Proof/Machine/Operands.lean ====
section
/-! DEFINITION. The operand-address resolver (40_sequencer_addressing.md R73 to R85): each addressing mode's effective address and
operand value, and the program counter's advance past an instruction (R51, R71). The operand bytes themselves are already in the
instruction: the step fetches them before it (DEDUCED, log entry 5). -/

namespace Sys2Proof.Machine

/-- The register the IndirectY mode adds (00_scope.md R3, R85). -/
def indexOfIndirectY (s : State) : Byte :=
  match s.cfg.indyIndex with
  | .y => s.y
  | .x => s.x

/-- The effective address of a memory operand (R77 to R85). Zero-page sums wrap mod 256; AbsoluteX, AbsoluteY and IndirectY sums are
unbounded (20_memory.md R34); a pointer is a plain word read (R83 to R85). -/
def effectiveAddress (s : State) : MemOperand → Except Fault Nat
  | .zeroPage z => .ok z.toNat
  | .zeroPageX z => .ok (z + s.x).toNat
  | .zeroPageY z => .ok (z + s.y).toNat
  | .absolute a => .ok a.toNat
  | .absoluteX a => .ok (a.toNat + s.x.toNat)
  | .absoluteY a => .ok (a.toNat + s.y.toNat)
  | .indirect p => (memReadWord s p.toNat).map BitVec.toNat
  | .indirectX z => (memReadWord s (z + s.x).toNat).map BitVec.toNat
  | .indirectY z => (memReadWord s z.toNat).map (fun w => w.toNat + (indexOfIndirectY s).toNat)

/-- What the resolver hands the executor in a memory mode (R73). -/
structure Resolved where
  ea : Nat
  value : Byte
  deriving DecidableEq, Repr

/-- Resolving a memory operand: its address, then the byte there, which is read whatever the operation (R73). -/
def resolveMem (s : State) (m : MemOperand) : Except Fault Resolved :=
  match effectiveAddress s m with
  | .error f => .error f
  | .ok ea => match memRead s ea with
    | .error f => .error f
    | .ok v => .ok { ea := ea, value := v }

/-- The operand value in any mode (R74 to R85). -/
def operandValue (s : State) : Operand → Except Fault Byte
  | .implied => .ok 0
  | .accumulator => .ok s.a
  | .immediate v => .ok v
  | .mem m => (resolveMem s m).map Resolved.value

/-- PC_seq, the address after the instruction: PC_op + 1 + width(mode), mod 65536 (10_state.md R15). -/
def pcSeq (s : State) (o : Operand) : Word :=
  s.pc + 1#16 + BitVec.ofNat 16 (modeWidth s.cfg.immWidth o.mode)

/-- The state the executor sees, with PC = PC_seq (R86). -/
def State.advance (s : State) (o : Operand) : State := s.setPc (pcSeq s o)

/-- Resolve the operand's value, then execute with it (R70, R86). -/
def withValue (o : Operand) (s : State) (k : Byte → State → Out) : Out :=
  match operandValue s o with
  | .error f => .fault f
  | .ok v => k v (s.advance o)

/-- Resolve a memory operand's address and value, then execute with them (R70, R86). -/
def withTarget (m : MemOperand) (s : State) (k : Resolved → State → Out) : Out :=
  match resolveMem s m with
  | .error f => .fault f
  | .ok r => k r (s.advance (.mem m))

/-- Execute an instruction in Implied mode, whose resolver does nothing (R76). -/
def withNothing (s : State) (k : State → Out) : Out := k (s.advance .implied)

end Sys2Proof.Machine
end

