-- ==== Sys2Proof/Machine/Arithmetic.lean ====
section
/-! DEFINITION. Arithmetic, compare, increment and decrement instructions (42_arithmetic.md R120 to R133). -/

namespace Sys2Proof.Machine

/-- ADC and SBC are refused: P.D = 1 under DECIMAL_MODE = refuse (60_exceptions.md R206). -/
def decimalRefused (s : State) : Bool := decide (s.cfg.decimalMode = .refuse) && s.flag .d

/-- A, C, V, N and Z from a sum (R121, R122), unless decimal arithmetic is refused; the check comes after the resolver (R205). -/
def addToA (v : Byte) (t : State) : Out :=
  if decimalRefused t then .refused .decimalArithmetic
  else .next ((t.setA (add8 t.a v (t.flag .c)).r).setP (sumFlags t.p (add8 t.a v (t.flag .c))))

/-- ADC (R121). -/
def addWithCarry (o : Operand) (s : State) : Out := withValue o s fun v t => addToA v t

/-- SBC (R122): the adder's second input is the operand's complement. -/
def subtractWithBorrow (o : Operand) (s : State) : Out := withValue o s fun v t => addToA (~~~v) t

/-- `compare(reg, value)` (R123 to R126). -/
def compareWith (reg : Byte) (o : Operand) (s : State) : Out :=
  withValue o s fun v t => .next (t.setP (compareFlags t.p reg v))

/-- `(v + 1) mod 256` and `(v + 255) mod 256` (R127 to R132). -/
def incByte (v : Byte) : Byte := v + 1#8
def decByte (v : Byte) : Byte := v + 255#8

/-- A memory byte read, changed and written back, with N and Z from the result (R127, R128). -/
def modifyMem (f : Byte → Byte) (m : MemOperand) (s : State) : Out :=
  withTarget m s fun r t => finish ((memWrite t r.ea (f r.value)).map (fun u => u.setNZ (f r.value)))

/-- ADC, IndirectX, opcode 0x61 (R121). -/
def execAdcIndirectX (z : Byte) (s : State) : Out := addWithCarry (.mem (.indirectX z)) s

/-- ADC, ZeroPage, opcode 0x65 (R121). -/
def execAdcZeroPage (z : Byte) (s : State) : Out := addWithCarry (.mem (.zeroPage z)) s

/-- ADC, Immediate, opcode 0x69 (R121). -/
def execAdcImmediate (v : Byte) (s : State) : Out := addWithCarry (.immediate v) s

/-- ADC, Absolute, opcode 0x6D (R121). -/
def execAdcAbsolute (a : Word) (s : State) : Out := addWithCarry (.mem (.absolute a)) s

/-- ADC, IndirectY, opcode 0x71 (R121). -/
def execAdcIndirectY (z : Byte) (s : State) : Out := addWithCarry (.mem (.indirectY z)) s

/-- ADC, ZeroPageX, opcode 0x75 (R121). -/
def execAdcZeroPageX (z : Byte) (s : State) : Out := addWithCarry (.mem (.zeroPageX z)) s

/-- ADC, AbsoluteY, opcode 0x79 (R121). -/
def execAdcAbsoluteY (a : Word) (s : State) : Out := addWithCarry (.mem (.absoluteY a)) s

/-- ADC, AbsoluteX, opcode 0x7D (R121). -/
def execAdcAbsoluteX (a : Word) (s : State) : Out := addWithCarry (.mem (.absoluteX a)) s

/-- SBC, IndirectX, opcode 0xE1 (R122). -/
def execSbcIndirectX (z : Byte) (s : State) : Out := subtractWithBorrow (.mem (.indirectX z)) s

/-- SBC, ZeroPage, opcode 0xE5 (R122). -/
def execSbcZeroPage (z : Byte) (s : State) : Out := subtractWithBorrow (.mem (.zeroPage z)) s

/-- SBC, Immediate, opcode 0xE9 (R122). -/
def execSbcImmediate (v : Byte) (s : State) : Out := subtractWithBorrow (.immediate v) s

/-- SBC, Absolute, opcode 0xED (R122). -/
def execSbcAbsolute (a : Word) (s : State) : Out := subtractWithBorrow (.mem (.absolute a)) s

/-- SBC, IndirectY, opcode 0xF1 (R122). -/
def execSbcIndirectY (z : Byte) (s : State) : Out := subtractWithBorrow (.mem (.indirectY z)) s

/-- SBC, ZeroPageX, opcode 0xF5 (R122). -/
def execSbcZeroPageX (z : Byte) (s : State) : Out := subtractWithBorrow (.mem (.zeroPageX z)) s

/-- SBC, AbsoluteY, opcode 0xF9 (R122). -/
def execSbcAbsoluteY (a : Word) (s : State) : Out := subtractWithBorrow (.mem (.absoluteY a)) s

/-- SBC, AbsoluteX, opcode 0xFD (R122). -/
def execSbcAbsoluteX (a : Word) (s : State) : Out := subtractWithBorrow (.mem (.absoluteX a)) s

/-- CMP, IndirectX, opcode 0xC1 (R124). -/
def execCmpIndirectX (z : Byte) (s : State) : Out := compareWith s.a (.mem (.indirectX z)) s

/-- CMP, ZeroPage, opcode 0xC5 (R124). -/
def execCmpZeroPage (z : Byte) (s : State) : Out := compareWith s.a (.mem (.zeroPage z)) s

/-- CMP, Immediate, opcode 0xC9 (R124). -/
def execCmpImmediate (v : Byte) (s : State) : Out := compareWith s.a (.immediate v) s

/-- CMP, Absolute, opcode 0xCD (R124). -/
def execCmpAbsolute (a : Word) (s : State) : Out := compareWith s.a (.mem (.absolute a)) s

/-- CMP, IndirectY, opcode 0xD1 (R124). -/
def execCmpIndirectY (z : Byte) (s : State) : Out := compareWith s.a (.mem (.indirectY z)) s

/-- CMP, ZeroPageX, opcode 0xD5 (R124). -/
def execCmpZeroPageX (z : Byte) (s : State) : Out := compareWith s.a (.mem (.zeroPageX z)) s

/-- CMP, AbsoluteY, opcode 0xD9 (R124). -/
def execCmpAbsoluteY (a : Word) (s : State) : Out := compareWith s.a (.mem (.absoluteY a)) s

/-- CMP, AbsoluteX, opcode 0xDD (R124). -/
def execCmpAbsoluteX (a : Word) (s : State) : Out := compareWith s.a (.mem (.absoluteX a)) s

/-- CPX, Immediate, opcode 0xE0 (R125). -/
def execCpxImmediate (v : Byte) (s : State) : Out := compareWith s.x (.immediate v) s

/-- CPX, ZeroPage, opcode 0xE4 (R125). -/
def execCpxZeroPage (z : Byte) (s : State) : Out := compareWith s.x (.mem (.zeroPage z)) s

/-- CPX, Absolute, opcode 0xEC (R125). -/
def execCpxAbsolute (a : Word) (s : State) : Out := compareWith s.x (.mem (.absolute a)) s

/-- CPY, Immediate, opcode 0xC0 (R126). -/
def execCpyImmediate (v : Byte) (s : State) : Out := compareWith s.y (.immediate v) s

/-- CPY, ZeroPage, opcode 0xC4 (R126). -/
def execCpyZeroPage (z : Byte) (s : State) : Out := compareWith s.y (.mem (.zeroPage z)) s

/-- CPY, Absolute, opcode 0xCC (R126). -/
def execCpyAbsolute (a : Word) (s : State) : Out := compareWith s.y (.mem (.absolute a)) s

/-- INC, ZeroPage, opcode 0xE6 (R127). -/
def execIncZeroPage (z : Byte) (s : State) : Out := modifyMem incByte (.zeroPage z) s

/-- INC, Absolute, opcode 0xEE (R127). -/
def execIncAbsolute (a : Word) (s : State) : Out := modifyMem incByte (.absolute a) s

/-- INC, ZeroPageX, opcode 0xF6 (R127). -/
def execIncZeroPageX (z : Byte) (s : State) : Out := modifyMem incByte (.zeroPageX z) s

/-- INC, AbsoluteX, opcode 0xFE (R127). -/
def execIncAbsoluteX (a : Word) (s : State) : Out := modifyMem incByte (.absoluteX a) s

/-- DEC, ZeroPage, opcode 0xC6 (R128). -/
def execDecZeroPage (z : Byte) (s : State) : Out := modifyMem decByte (.zeroPage z) s

/-- DEC, Absolute, opcode 0xCE (R128). -/
def execDecAbsolute (a : Word) (s : State) : Out := modifyMem decByte (.absolute a) s

/-- DEC, ZeroPageX, opcode 0xD6 (R128). -/
def execDecZeroPageX (z : Byte) (s : State) : Out := modifyMem decByte (.zeroPageX z) s

/-- DEC, AbsoluteX, opcode 0xDE (R128). -/
def execDecAbsoluteX (a : Word) (s : State) : Out := modifyMem decByte (.absoluteX a) s

/-- INX, Implied, opcode 0xE8 (R129). -/
def execInx (s : State) : Out := withNothing s fun t => .next ((t.setX (incByte t.x)).setNZ (incByte t.x))

/-- INY, Implied, opcode 0xC8 (R130). -/
def execIny (s : State) : Out := withNothing s fun t => .next ((t.setY (incByte t.y)).setNZ (incByte t.y))

/-- DEX, Implied, opcode 0xCA (R131). -/
def execDex (s : State) : Out := withNothing s fun t => .next ((t.setX (decByte t.x)).setNZ (decByte t.x))

/-- DEY, Implied, opcode 0x88 (R132). -/
def execDey (s : State) : Out := withNothing s fun t => .next ((t.setY (decByte t.y)).setNZ (decByte t.y))

end Sys2Proof.Machine
end

