-- ==== Sys2Proof/Machine/Branch.lean ====
section
/-! DEFINITION. Conditional branches (45_branch.md R160 to R168). -/

namespace Sys2Proof.Machine

/-- `sext_16(v)` (00_scope.md section 5). -/
def signExtend16 (v : Byte) : Word := v.signExtend 16

/-- The common branch rule (R160): the offset byte is resolved in Immediate mode; the branch is taken when the flag has the value. -/
def branchIf (f : Flag) (want : Bool) (d : Byte) (s : State) : Out :=
  withValue (.immediate d) s fun v t =>
    .next (if t.flag f = want then t.setPc (t.pc + signExtend16 v) else t)

/-- BPL, Immediate, opcode 0x10 (R161). -/
def execBpl (d : Byte) (s : State) : Out := branchIf .n false d s

/-- BMI, Immediate, opcode 0x30 (R162). -/
def execBmi (d : Byte) (s : State) : Out := branchIf .n true d s

/-- BVC, Immediate, opcode 0x50 (R163). -/
def execBvc (d : Byte) (s : State) : Out := branchIf .v false d s

/-- BVS, Immediate, opcode 0x70 (R164). -/
def execBvs (d : Byte) (s : State) : Out := branchIf .v true d s

/-- BCC, Immediate, opcode 0x90 (R165). -/
def execBcc (d : Byte) (s : State) : Out := branchIf .c false d s

/-- BCS, Immediate, opcode 0xB0 (R166). -/
def execBcs (d : Byte) (s : State) : Out := branchIf .c true d s

/-- BNE, Immediate, opcode 0xD0 (R167). -/
def execBne (d : Byte) (s : State) : Out := branchIf .z false d s

/-- BEQ, Immediate, opcode 0xF0 (R168). -/
def execBeq (d : Byte) (s : State) : Out := branchIf .z true d s

end Sys2Proof.Machine
end

