-- ==== Sys2Proof/Machine/FlagControl.lean ====
section
/-! DEFINITION. Flag-control instructions and NOP (48_flag_control_nop.md R190 to R197). -/

namespace Sys2Proof.Machine

/-- One flag written, nothing else (R190 to R196). -/
def writeFlag (f : Flag) (v : Bool) (s : State) : Out := withNothing s fun t => .next (t.setFlag f v)

/-- CLC, Implied, opcode 0x18 (R190). -/
def execClc (s : State) : Out := writeFlag .c false s

/-- SEC, Implied, opcode 0x38 (R191). -/
def execSec (s : State) : Out := writeFlag .c true s

/-- CLI, Implied, opcode 0x58 (R192). -/
def execCli (s : State) : Out := writeFlag .i false s

/-- SEI, Implied, opcode 0x78 (R193). -/
def execSei (s : State) : Out := writeFlag .i true s

/-- CLD, Implied, opcode 0xD8 (R194). -/
def execCld (s : State) : Out := writeFlag .d false s

/-- SED, Implied, opcode 0xF8 (R195). -/
def execSed (s : State) : Out := writeFlag .d true s

/-- CLV, Implied, opcode 0xB8 (R196). -/
def execClv (s : State) : Out := writeFlag .v false s

/-- NOP, Implied, opcode 0xEA (R197). -/
def execNop (s : State) : Out := withNothing s fun t => .next t

end Sys2Proof.Machine
end

