-- ==== Sys2Proof/Machine/Jump.lean ====
section
/-! DEFINITION. Jump, subroutine, break and return (46_jump_subroutine_break.md R170 to R174). BRK and RTI are trap entry and return
(`takeBreak`, `returnFromBreak` in Ops.lean). -/

namespace Sys2Proof.Machine

/-- `PC <- ea` (R170). The resolver also reads the byte at the target (40_sequencer_addressing.md R73). -/
def jumpTo (m : MemOperand) (s : State) : Out := withTarget m s fun r t => .next (t.setPc (BitVec.ofNat 16 r.ea))

/-- JSR (R171): PC_seq - 1 is pushed, then PC takes ea. -/
def callSubroutine (m : MemOperand) (s : State) : Out :=
  withTarget m s fun r t => finish ((pushWord (t.pc + 65535#16) t).map (fun u => u.setPc (BitVec.ofNat 16 r.ea)))

/-- RTS (R172): the pulled address plus one. -/
def returnFromSubroutine (t : State) : Except Fault State :=
  (pullWord t).map (fun wu => wu.2.setPc (wu.1 + 1#16))

/-- JMP, Absolute, opcode 0x4C (R170). -/
def execJmpAbsolute (a : Word) (s : State) : Out := jumpTo (.absolute a) s

/-- JMP, Indirect, opcode 0x6C (R170). -/
def execJmpIndirect (p : Word) (s : State) : Out := jumpTo (.indirect p) s

/-- JSR, Absolute, opcode 0x20 (R171). -/
def execJsr (a : Word) (s : State) : Out := callSubroutine (.absolute a) s

/-- RTS, Implied, opcode 0x60 (R172). -/
def execRts (s : State) : Out := withNothing s fun t => finish (returnFromSubroutine t)

/-- BRK, Implied, opcode 0x00 (R173). -/
def execBrk (s : State) : Out := withNothing s fun t => finish (takeBreak (t.pc + 1#16) t)

/-- RTI, Implied, opcode 0x40 (R174). -/
def execRti (s : State) : Out := withNothing s fun t => finish (returnFromBreak t)

end Sys2Proof.Machine
end

