-- ==== Sys2Proof/Machine/LoadStore.lean ====
section
/-! DEFINITION. Load, store and register-transfer instructions (41_load_store_transfer.md R100 to R109): three loads and one store
over the resolver, and one meaning for each opcode. -/

namespace Sys2Proof.Machine

/-- `A <- value; setNZ(A)` (R100). -/
def loadA (o : Operand) (s : State) : Out := withValue o s fun v t => .next ((t.setA v).setNZ v)

/-- `X <- value; setNZ(X)` (R101). -/
def loadX (o : Operand) (s : State) : Out := withValue o s fun v t => .next ((t.setX v).setNZ v)

/-- `Y <- value; setNZ(Y)` (R102). -/
def loadY (o : Operand) (s : State) : Out := withValue o s fun v t => .next ((t.setY v).setNZ v)

/-- `MemWrite(ea, 1, v)`, after the resolver has read the byte at ea (R103 to R105, 40_sequencer_addressing.md R73). -/
def storeByte (v : Byte) (m : MemOperand) (s : State) : Out := withTarget m s fun r t => finish (memWrite t r.ea v)

/-- LDA, IndirectX, opcode 0xA1 (R100). -/
def execLdaIndirectX (z : Byte) (s : State) : Out := loadA (.mem (.indirectX z)) s

/-- LDA, ZeroPage, opcode 0xA5 (R100). -/
def execLdaZeroPage (z : Byte) (s : State) : Out := loadA (.mem (.zeroPage z)) s

/-- LDA, Immediate, opcode 0xA9 (R100). -/
def execLdaImmediate (v : Byte) (s : State) : Out := loadA (.immediate v) s

/-- LDA, Absolute, opcode 0xAD (R100). -/
def execLdaAbsolute (a : Word) (s : State) : Out := loadA (.mem (.absolute a)) s

/-- LDA, IndirectY, opcode 0xB1 (R100). -/
def execLdaIndirectY (z : Byte) (s : State) : Out := loadA (.mem (.indirectY z)) s

/-- LDA, ZeroPageX, opcode 0xB5 (R100). -/
def execLdaZeroPageX (z : Byte) (s : State) : Out := loadA (.mem (.zeroPageX z)) s

/-- LDA, AbsoluteY, opcode 0xB9 (R100). -/
def execLdaAbsoluteY (a : Word) (s : State) : Out := loadA (.mem (.absoluteY a)) s

/-- LDA, AbsoluteX, opcode 0xBD (R100). -/
def execLdaAbsoluteX (a : Word) (s : State) : Out := loadA (.mem (.absoluteX a)) s

/-- LDX, Immediate, opcode 0xA2 (R101). -/
def execLdxImmediate (v : Byte) (s : State) : Out := loadX (.immediate v) s

/-- LDX, ZeroPage, opcode 0xA6 (R101). -/
def execLdxZeroPage (z : Byte) (s : State) : Out := loadX (.mem (.zeroPage z)) s

/-- LDX, Absolute, opcode 0xAE (R101). -/
def execLdxAbsolute (a : Word) (s : State) : Out := loadX (.mem (.absolute a)) s

/-- LDX, ZeroPageY, opcode 0xB6 (R101). -/
def execLdxZeroPageY (z : Byte) (s : State) : Out := loadX (.mem (.zeroPageY z)) s

/-- LDX, AbsoluteY, opcode 0xBE (R101). -/
def execLdxAbsoluteY (a : Word) (s : State) : Out := loadX (.mem (.absoluteY a)) s

/-- LDY, Immediate, opcode 0xA0 (R102). -/
def execLdyImmediate (v : Byte) (s : State) : Out := loadY (.immediate v) s

/-- LDY, ZeroPage, opcode 0xA4 (R102). -/
def execLdyZeroPage (z : Byte) (s : State) : Out := loadY (.mem (.zeroPage z)) s

/-- LDY, Absolute, opcode 0xAC (R102). -/
def execLdyAbsolute (a : Word) (s : State) : Out := loadY (.mem (.absolute a)) s

/-- LDY, ZeroPageX, opcode 0xB4 (R102). -/
def execLdyZeroPageX (z : Byte) (s : State) : Out := loadY (.mem (.zeroPageX z)) s

/-- LDY, AbsoluteX, opcode 0xBC (R102). -/
def execLdyAbsoluteX (a : Word) (s : State) : Out := loadY (.mem (.absoluteX a)) s

/-- STA, IndirectX, opcode 0x81 (R103). -/
def execStaIndirectX (z : Byte) (s : State) : Out := storeByte s.a (.indirectX z) s

/-- STA, ZeroPage, opcode 0x85 (R103). -/
def execStaZeroPage (z : Byte) (s : State) : Out := storeByte s.a (.zeroPage z) s

/-- STA, Absolute, opcode 0x8D (R103). -/
def execStaAbsolute (a : Word) (s : State) : Out := storeByte s.a (.absolute a) s

/-- STA, IndirectY, opcode 0x91 (R103). -/
def execStaIndirectY (z : Byte) (s : State) : Out := storeByte s.a (.indirectY z) s

/-- STA, ZeroPageX, opcode 0x95 (R103). -/
def execStaZeroPageX (z : Byte) (s : State) : Out := storeByte s.a (.zeroPageX z) s

/-- STA, AbsoluteY, opcode 0x99 (R103). -/
def execStaAbsoluteY (a : Word) (s : State) : Out := storeByte s.a (.absoluteY a) s

/-- STA, AbsoluteX, opcode 0x9D (R103). -/
def execStaAbsoluteX (a : Word) (s : State) : Out := storeByte s.a (.absoluteX a) s

/-- STX, ZeroPage, opcode 0x86 (R104). -/
def execStxZeroPage (z : Byte) (s : State) : Out := storeByte s.x (.zeroPage z) s

/-- STX, Absolute, opcode 0x8E (R104). -/
def execStxAbsolute (a : Word) (s : State) : Out := storeByte s.x (.absolute a) s

/-- STX, ZeroPageY, opcode 0x96 (R104). -/
def execStxZeroPageY (z : Byte) (s : State) : Out := storeByte s.x (.zeroPageY z) s

/-- STY, ZeroPage, opcode 0x84 (R105). -/
def execStyZeroPage (z : Byte) (s : State) : Out := storeByte s.y (.zeroPage z) s

/-- STY, Absolute, opcode 0x8C (R105). -/
def execStyAbsolute (a : Word) (s : State) : Out := storeByte s.y (.absolute a) s

/-- STY, ZeroPageX, opcode 0x94 (R105). -/
def execStyZeroPageX (z : Byte) (s : State) : Out := storeByte s.y (.zeroPageX z) s

/-- TAX, Implied, opcode 0xAA (R106). -/
def execTax (s : State) : Out := withNothing s fun t => .next ((t.setX t.a).setNZ t.a)

/-- TAY, Implied, opcode 0xA8 (R107). -/
def execTay (s : State) : Out := withNothing s fun t => .next ((t.setY t.a).setNZ t.a)

/-- TXA, Implied, opcode 0x8A (R108). -/
def execTxa (s : State) : Out := withNothing s fun t => .next ((t.setA t.x).setNZ t.x)

/-- TYA, Implied, opcode 0x98 (R109). -/
def execTya (s : State) : Out := withNothing s fun t => .next ((t.setA t.y).setNZ t.y)

end Sys2Proof.Machine
end

