-- ==== Sys2Proof/Machine/Logical.lean ====
section
/-! DEFINITION. Logical instructions (43_logical.md R140 to R143). -/

namespace Sys2Proof.Machine

/-- `A <- f(A, value); setNZ(A)` (R140 to R142). -/
def logicA (f : Byte → Byte → Byte) (o : Operand) (s : State) : Out :=
  withValue o s fun v t => .next ((t.setA (f t.a v)).setNZ (f t.a v))

/-- BIT (R143): only Z, N and V of P are written. -/
def testBits (o : Operand) (s : State) : Out := withValue o s fun v t => .next (t.setP (bitFlags t.p t.a v))

/-- AND, IndirectX, opcode 0x21 (R140). -/
def execAndIndirectX (z : Byte) (s : State) : Out := logicA (· &&& ·) (.mem (.indirectX z)) s

/-- AND, ZeroPage, opcode 0x25 (R140). -/
def execAndZeroPage (z : Byte) (s : State) : Out := logicA (· &&& ·) (.mem (.zeroPage z)) s

/-- AND, Immediate, opcode 0x29 (R140). -/
def execAndImmediate (v : Byte) (s : State) : Out := logicA (· &&& ·) (.immediate v) s

/-- AND, Absolute, opcode 0x2D (R140). -/
def execAndAbsolute (a : Word) (s : State) : Out := logicA (· &&& ·) (.mem (.absolute a)) s

/-- AND, IndirectY, opcode 0x31 (R140). -/
def execAndIndirectY (z : Byte) (s : State) : Out := logicA (· &&& ·) (.mem (.indirectY z)) s

/-- AND, ZeroPageX, opcode 0x35 (R140). -/
def execAndZeroPageX (z : Byte) (s : State) : Out := logicA (· &&& ·) (.mem (.zeroPageX z)) s

/-- AND, AbsoluteY, opcode 0x39 (R140). -/
def execAndAbsoluteY (a : Word) (s : State) : Out := logicA (· &&& ·) (.mem (.absoluteY a)) s

/-- AND, AbsoluteX, opcode 0x3D (R140). -/
def execAndAbsoluteX (a : Word) (s : State) : Out := logicA (· &&& ·) (.mem (.absoluteX a)) s

/-- ORA, IndirectX, opcode 0x01 (R141). -/
def execOraIndirectX (z : Byte) (s : State) : Out := logicA (· ||| ·) (.mem (.indirectX z)) s

/-- ORA, ZeroPage, opcode 0x05 (R141). -/
def execOraZeroPage (z : Byte) (s : State) : Out := logicA (· ||| ·) (.mem (.zeroPage z)) s

/-- ORA, Immediate, opcode 0x09 (R141). -/
def execOraImmediate (v : Byte) (s : State) : Out := logicA (· ||| ·) (.immediate v) s

/-- ORA, Absolute, opcode 0x0D (R141). -/
def execOraAbsolute (a : Word) (s : State) : Out := logicA (· ||| ·) (.mem (.absolute a)) s

/-- ORA, IndirectY, opcode 0x11 (R141). -/
def execOraIndirectY (z : Byte) (s : State) : Out := logicA (· ||| ·) (.mem (.indirectY z)) s

/-- ORA, ZeroPageX, opcode 0x15 (R141). -/
def execOraZeroPageX (z : Byte) (s : State) : Out := logicA (· ||| ·) (.mem (.zeroPageX z)) s

/-- ORA, AbsoluteY, opcode 0x19 (R141). -/
def execOraAbsoluteY (a : Word) (s : State) : Out := logicA (· ||| ·) (.mem (.absoluteY a)) s

/-- ORA, AbsoluteX, opcode 0x1D (R141). -/
def execOraAbsoluteX (a : Word) (s : State) : Out := logicA (· ||| ·) (.mem (.absoluteX a)) s

/-- EOR, IndirectX, opcode 0x41 (R142). -/
def execEorIndirectX (z : Byte) (s : State) : Out := logicA (· ^^^ ·) (.mem (.indirectX z)) s

/-- EOR, ZeroPage, opcode 0x45 (R142). -/
def execEorZeroPage (z : Byte) (s : State) : Out := logicA (· ^^^ ·) (.mem (.zeroPage z)) s

/-- EOR, Immediate, opcode 0x49 (R142). -/
def execEorImmediate (v : Byte) (s : State) : Out := logicA (· ^^^ ·) (.immediate v) s

/-- EOR, Absolute, opcode 0x4D (R142). -/
def execEorAbsolute (a : Word) (s : State) : Out := logicA (· ^^^ ·) (.mem (.absolute a)) s

/-- EOR, IndirectY, opcode 0x51 (R142). -/
def execEorIndirectY (z : Byte) (s : State) : Out := logicA (· ^^^ ·) (.mem (.indirectY z)) s

/-- EOR, ZeroPageX, opcode 0x55 (R142). -/
def execEorZeroPageX (z : Byte) (s : State) : Out := logicA (· ^^^ ·) (.mem (.zeroPageX z)) s

/-- EOR, AbsoluteY, opcode 0x59 (R142). -/
def execEorAbsoluteY (a : Word) (s : State) : Out := logicA (· ^^^ ·) (.mem (.absoluteY a)) s

/-- EOR, AbsoluteX, opcode 0x5D (R142). -/
def execEorAbsoluteX (a : Word) (s : State) : Out := logicA (· ^^^ ·) (.mem (.absoluteX a)) s

/-- BIT, ZeroPage, opcode 0x24 (R143). -/
def execBitZeroPage (z : Byte) (s : State) : Out := testBits (.mem (.zeroPage z)) s

/-- BIT, Absolute, opcode 0x2C (R143). -/
def execBitAbsolute (a : Word) (s : State) : Out := testBits (.mem (.absolute a)) s

end Sys2Proof.Machine
end

