-- ==== Sys2Proof/Machine/Shift.lean ====
section
/-! DEFINITION. Shift and rotate instructions (44_shift_rotate.md R150 to R154): the result goes back to A or to memory (R150). -/

namespace Sys2Proof.Machine

/-- A shift in Accumulator mode: the result goes to A (R150). -/
def shiftA (f : Byte → Bool → Shifted) (s : State) : Out :=
  withValue .accumulator s fun v t =>
    .next ((t.setA (f v (t.flag .c)).r).setP (shiftFlags t.p (f v (t.flag .c))))

/-- A shift in a memory mode: the result goes back to ea with one write (R150). -/
def shiftMem (f : Byte → Bool → Shifted) (m : MemOperand) (s : State) : Out :=
  withTarget m s fun r t =>
    finish ((memWrite t r.ea (f r.value (t.flag .c)).r).map (fun u => u.setP (shiftFlags t.p (f r.value (t.flag .c)))))

/-- ASL, ZeroPage, opcode 0x06 (R151). -/
def execAslZeroPage (z : Byte) (s : State) : Out := shiftMem shiftAsl (.zeroPage z) s

/-- ASL, Accumulator, opcode 0x0A (R151). -/
def execAslAccumulator (s : State) : Out := shiftA shiftAsl s

/-- ASL, Absolute, opcode 0x0E (R151). -/
def execAslAbsolute (a : Word) (s : State) : Out := shiftMem shiftAsl (.absolute a) s

/-- ASL, ZeroPageX, opcode 0x16 (R151). -/
def execAslZeroPageX (z : Byte) (s : State) : Out := shiftMem shiftAsl (.zeroPageX z) s

/-- ASL, AbsoluteX, opcode 0x1E (R151). -/
def execAslAbsoluteX (a : Word) (s : State) : Out := shiftMem shiftAsl (.absoluteX a) s

/-- LSR, ZeroPage, opcode 0x46 (R152). -/
def execLsrZeroPage (z : Byte) (s : State) : Out := shiftMem shiftLsr (.zeroPage z) s

/-- LSR, Accumulator, opcode 0x4A (R152). -/
def execLsrAccumulator (s : State) : Out := shiftA shiftLsr s

/-- LSR, Absolute, opcode 0x4E (R152). -/
def execLsrAbsolute (a : Word) (s : State) : Out := shiftMem shiftLsr (.absolute a) s

/-- LSR, ZeroPageX, opcode 0x56 (R152). -/
def execLsrZeroPageX (z : Byte) (s : State) : Out := shiftMem shiftLsr (.zeroPageX z) s

/-- LSR, AbsoluteX, opcode 0x5E (R152). -/
def execLsrAbsoluteX (a : Word) (s : State) : Out := shiftMem shiftLsr (.absoluteX a) s

/-- ROL, ZeroPage, opcode 0x26 (R153). -/
def execRolZeroPage (z : Byte) (s : State) : Out := shiftMem shiftRol (.zeroPage z) s

/-- ROL, Accumulator, opcode 0x2A (R153). -/
def execRolAccumulator (s : State) : Out := shiftA shiftRol s

/-- ROL, Absolute, opcode 0x2E (R153). -/
def execRolAbsolute (a : Word) (s : State) : Out := shiftMem shiftRol (.absolute a) s

/-- ROL, ZeroPageX, opcode 0x36 (R153). -/
def execRolZeroPageX (z : Byte) (s : State) : Out := shiftMem shiftRol (.zeroPageX z) s

/-- ROL, AbsoluteX, opcode 0x3E (R153). -/
def execRolAbsoluteX (a : Word) (s : State) : Out := shiftMem shiftRol (.absoluteX a) s

/-- ROR, ZeroPage, opcode 0x66 (R154). -/
def execRorZeroPage (z : Byte) (s : State) : Out := shiftMem shiftRor (.zeroPage z) s

/-- ROR, Accumulator, opcode 0x6A (R154). -/
def execRorAccumulator (s : State) : Out := shiftA shiftRor s

/-- ROR, Absolute, opcode 0x6E (R154). -/
def execRorAbsolute (a : Word) (s : State) : Out := shiftMem shiftRor (.absolute a) s

/-- ROR, ZeroPageX, opcode 0x76 (R154). -/
def execRorZeroPageX (z : Byte) (s : State) : Out := shiftMem shiftRor (.zeroPageX z) s

/-- ROR, AbsoluteX, opcode 0x7E (R154). -/
def execRorAbsoluteX (a : Word) (s : State) : Out := shiftMem shiftRor (.absoluteX a) s

end Sys2Proof.Machine
end

