-- ==== Sys2Proof/Machine/Stack.lean ====
section
/-! DEFINITION. Stack instructions (47_stack.md R181 to R186); push and pull are in Ops.lean (R180). -/

namespace Sys2Proof.Machine

/-- A byte pulled, then the register writes it feeds (R183, R184). -/
def pullInto (k : Byte → State → State) (t : State) : Except Fault State :=
  (pull t).map (fun bu => k bu.1 bu.2)

/-- PHA, Implied, opcode 0x48 (R181). -/
def execPha (s : State) : Out := withNothing s fun t => finish (push t.a t)

/-- PHP, Implied, opcode 0x08 (R182). -/
def execPhp (s : State) : Out := withNothing s fun t => finish (push (pushedStatus t.p) t)

/-- PLA, Implied, opcode 0x68 (R183). -/
def execPla (s : State) : Out := withNothing s fun t => finish (pullInto (fun b u => (u.setA b).setNZ b) t)

/-- PLP, Implied, opcode 0x28 (R184). -/
def execPlp (s : State) : Out := withNothing s fun t => finish (pullInto (fun b u => u.setP (pulledStatus b)) t)

/-- TSX, Implied, opcode 0xBA (R185). -/
def execTsx (s : State) : Out := withNothing s fun t => .next ((t.setX t.sp).setNZ t.sp)

/-- TXS, Implied, opcode 0x9A (R186). -/
def execTxs (s : State) : Out := withNothing s fun t => .next (t.setSp t.x)

end Sys2Proof.Machine
end

