-- ==== Sys2Proof/Machine/Dispatch.lean ====
section
/-! DEFINITION. Executing an instruction (40_sequencer_addressing.md R86): one arm for each constructor of Instr, in the order of
files 41 to 48, each a call of that instruction's own meaning. The state given has PC = PC_op (DEDUCED, log entry 5). -/

namespace Sys2Proof.Machine

def exec (i : Instr) (s : State) : Host.Outcome State Fault Refusal :=
  match i with
  | .ldaIndirectX z => Sys2Proof.Machine.execLdaIndirectX z s
  | .ldaZeroPage z => Sys2Proof.Machine.execLdaZeroPage z s
  | .ldaImmediate v => Sys2Proof.Machine.execLdaImmediate v s
  | .ldaAbsolute a => Sys2Proof.Machine.execLdaAbsolute a s
  | .ldaIndirectY z => Sys2Proof.Machine.execLdaIndirectY z s
  | .ldaZeroPageX z => Sys2Proof.Machine.execLdaZeroPageX z s
  | .ldaAbsoluteY a => Sys2Proof.Machine.execLdaAbsoluteY a s
  | .ldaAbsoluteX a => Sys2Proof.Machine.execLdaAbsoluteX a s
  | .ldxImmediate v => Sys2Proof.Machine.execLdxImmediate v s
  | .ldxZeroPage z => Sys2Proof.Machine.execLdxZeroPage z s
  | .ldxAbsolute a => Sys2Proof.Machine.execLdxAbsolute a s
  | .ldxZeroPageY z => Sys2Proof.Machine.execLdxZeroPageY z s
  | .ldxAbsoluteY a => Sys2Proof.Machine.execLdxAbsoluteY a s
  | .ldyImmediate v => Sys2Proof.Machine.execLdyImmediate v s
  | .ldyZeroPage z => Sys2Proof.Machine.execLdyZeroPage z s
  | .ldyAbsolute a => Sys2Proof.Machine.execLdyAbsolute a s
  | .ldyZeroPageX z => Sys2Proof.Machine.execLdyZeroPageX z s
  | .ldyAbsoluteX a => Sys2Proof.Machine.execLdyAbsoluteX a s
  | .staIndirectX z => Sys2Proof.Machine.execStaIndirectX z s
  | .staZeroPage z => Sys2Proof.Machine.execStaZeroPage z s
  | .staAbsolute a => Sys2Proof.Machine.execStaAbsolute a s
  | .staIndirectY z => Sys2Proof.Machine.execStaIndirectY z s
  | .staZeroPageX z => Sys2Proof.Machine.execStaZeroPageX z s
  | .staAbsoluteY a => Sys2Proof.Machine.execStaAbsoluteY a s
  | .staAbsoluteX a => Sys2Proof.Machine.execStaAbsoluteX a s
  | .stxZeroPage z => Sys2Proof.Machine.execStxZeroPage z s
  | .stxAbsolute a => Sys2Proof.Machine.execStxAbsolute a s
  | .stxZeroPageY z => Sys2Proof.Machine.execStxZeroPageY z s
  | .styZeroPage z => Sys2Proof.Machine.execStyZeroPage z s
  | .styAbsolute a => Sys2Proof.Machine.execStyAbsolute a s
  | .styZeroPageX z => Sys2Proof.Machine.execStyZeroPageX z s
  | .tax => Sys2Proof.Machine.execTax s
  | .tay => Sys2Proof.Machine.execTay s
  | .txa => Sys2Proof.Machine.execTxa s
  | .tya => Sys2Proof.Machine.execTya s
  | .adcIndirectX z => Sys2Proof.Machine.execAdcIndirectX z s
  | .adcZeroPage z => Sys2Proof.Machine.execAdcZeroPage z s
  | .adcImmediate v => Sys2Proof.Machine.execAdcImmediate v s
  | .adcAbsolute a => Sys2Proof.Machine.execAdcAbsolute a s
  | .adcIndirectY z => Sys2Proof.Machine.execAdcIndirectY z s
  | .adcZeroPageX z => Sys2Proof.Machine.execAdcZeroPageX z s
  | .adcAbsoluteY a => Sys2Proof.Machine.execAdcAbsoluteY a s
  | .adcAbsoluteX a => Sys2Proof.Machine.execAdcAbsoluteX a s
  | .sbcIndirectX z => Sys2Proof.Machine.execSbcIndirectX z s
  | .sbcZeroPage z => Sys2Proof.Machine.execSbcZeroPage z s
  | .sbcImmediate v => Sys2Proof.Machine.execSbcImmediate v s
  | .sbcAbsolute a => Sys2Proof.Machine.execSbcAbsolute a s
  | .sbcIndirectY z => Sys2Proof.Machine.execSbcIndirectY z s
  | .sbcZeroPageX z => Sys2Proof.Machine.execSbcZeroPageX z s
  | .sbcAbsoluteY a => Sys2Proof.Machine.execSbcAbsoluteY a s
  | .sbcAbsoluteX a => Sys2Proof.Machine.execSbcAbsoluteX a s
  | .cmpIndirectX z => Sys2Proof.Machine.execCmpIndirectX z s
  | .cmpZeroPage z => Sys2Proof.Machine.execCmpZeroPage z s
  | .cmpImmediate v => Sys2Proof.Machine.execCmpImmediate v s
  | .cmpAbsolute a => Sys2Proof.Machine.execCmpAbsolute a s
  | .cmpIndirectY z => Sys2Proof.Machine.execCmpIndirectY z s
  | .cmpZeroPageX z => Sys2Proof.Machine.execCmpZeroPageX z s
  | .cmpAbsoluteY a => Sys2Proof.Machine.execCmpAbsoluteY a s
  | .cmpAbsoluteX a => Sys2Proof.Machine.execCmpAbsoluteX a s
  | .cpxImmediate v => Sys2Proof.Machine.execCpxImmediate v s
  | .cpxZeroPage z => Sys2Proof.Machine.execCpxZeroPage z s
  | .cpxAbsolute a => Sys2Proof.Machine.execCpxAbsolute a s
  | .cpyImmediate v => Sys2Proof.Machine.execCpyImmediate v s
  | .cpyZeroPage z => Sys2Proof.Machine.execCpyZeroPage z s
  | .cpyAbsolute a => Sys2Proof.Machine.execCpyAbsolute a s
  | .incZeroPage z => Sys2Proof.Machine.execIncZeroPage z s
  | .incAbsolute a => Sys2Proof.Machine.execIncAbsolute a s
  | .incZeroPageX z => Sys2Proof.Machine.execIncZeroPageX z s
  | .incAbsoluteX a => Sys2Proof.Machine.execIncAbsoluteX a s
  | .decZeroPage z => Sys2Proof.Machine.execDecZeroPage z s
  | .decAbsolute a => Sys2Proof.Machine.execDecAbsolute a s
  | .decZeroPageX z => Sys2Proof.Machine.execDecZeroPageX z s
  | .decAbsoluteX a => Sys2Proof.Machine.execDecAbsoluteX a s
  | .inx => Sys2Proof.Machine.execInx s
  | .iny => Sys2Proof.Machine.execIny s
  | .dex => Sys2Proof.Machine.execDex s
  | .dey => Sys2Proof.Machine.execDey s
  | .andIndirectX z => Sys2Proof.Machine.execAndIndirectX z s
  | .andZeroPage z => Sys2Proof.Machine.execAndZeroPage z s
  | .andImmediate v => Sys2Proof.Machine.execAndImmediate v s
  | .andAbsolute a => Sys2Proof.Machine.execAndAbsolute a s
  | .andIndirectY z => Sys2Proof.Machine.execAndIndirectY z s
  | .andZeroPageX z => Sys2Proof.Machine.execAndZeroPageX z s
  | .andAbsoluteY a => Sys2Proof.Machine.execAndAbsoluteY a s
  | .andAbsoluteX a => Sys2Proof.Machine.execAndAbsoluteX a s
  | .oraIndirectX z => Sys2Proof.Machine.execOraIndirectX z s
  | .oraZeroPage z => Sys2Proof.Machine.execOraZeroPage z s
  | .oraImmediate v => Sys2Proof.Machine.execOraImmediate v s
  | .oraAbsolute a => Sys2Proof.Machine.execOraAbsolute a s
  | .oraIndirectY z => Sys2Proof.Machine.execOraIndirectY z s
  | .oraZeroPageX z => Sys2Proof.Machine.execOraZeroPageX z s
  | .oraAbsoluteY a => Sys2Proof.Machine.execOraAbsoluteY a s
  | .oraAbsoluteX a => Sys2Proof.Machine.execOraAbsoluteX a s
  | .eorIndirectX z => Sys2Proof.Machine.execEorIndirectX z s
  | .eorZeroPage z => Sys2Proof.Machine.execEorZeroPage z s
  | .eorImmediate v => Sys2Proof.Machine.execEorImmediate v s
  | .eorAbsolute a => Sys2Proof.Machine.execEorAbsolute a s
  | .eorIndirectY z => Sys2Proof.Machine.execEorIndirectY z s
  | .eorZeroPageX z => Sys2Proof.Machine.execEorZeroPageX z s
  | .eorAbsoluteY a => Sys2Proof.Machine.execEorAbsoluteY a s
  | .eorAbsoluteX a => Sys2Proof.Machine.execEorAbsoluteX a s
  | .bitZeroPage z => Sys2Proof.Machine.execBitZeroPage z s
  | .bitAbsolute a => Sys2Proof.Machine.execBitAbsolute a s
  | .aslZeroPage z => Sys2Proof.Machine.execAslZeroPage z s
  | .aslAccumulator => Sys2Proof.Machine.execAslAccumulator s
  | .aslAbsolute a => Sys2Proof.Machine.execAslAbsolute a s
  | .aslZeroPageX z => Sys2Proof.Machine.execAslZeroPageX z s
  | .aslAbsoluteX a => Sys2Proof.Machine.execAslAbsoluteX a s
  | .lsrZeroPage z => Sys2Proof.Machine.execLsrZeroPage z s
  | .lsrAccumulator => Sys2Proof.Machine.execLsrAccumulator s
  | .lsrAbsolute a => Sys2Proof.Machine.execLsrAbsolute a s
  | .lsrZeroPageX z => Sys2Proof.Machine.execLsrZeroPageX z s
  | .lsrAbsoluteX a => Sys2Proof.Machine.execLsrAbsoluteX a s
  | .rolZeroPage z => Sys2Proof.Machine.execRolZeroPage z s
  | .rolAccumulator => Sys2Proof.Machine.execRolAccumulator s
  | .rolAbsolute a => Sys2Proof.Machine.execRolAbsolute a s
  | .rolZeroPageX z => Sys2Proof.Machine.execRolZeroPageX z s
  | .rolAbsoluteX a => Sys2Proof.Machine.execRolAbsoluteX a s
  | .rorZeroPage z => Sys2Proof.Machine.execRorZeroPage z s
  | .rorAccumulator => Sys2Proof.Machine.execRorAccumulator s
  | .rorAbsolute a => Sys2Proof.Machine.execRorAbsolute a s
  | .rorZeroPageX z => Sys2Proof.Machine.execRorZeroPageX z s
  | .rorAbsoluteX a => Sys2Proof.Machine.execRorAbsoluteX a s
  | .bpl d => Sys2Proof.Machine.execBpl d s
  | .bmi d => Sys2Proof.Machine.execBmi d s
  | .bvc d => Sys2Proof.Machine.execBvc d s
  | .bvs d => Sys2Proof.Machine.execBvs d s
  | .bcc d => Sys2Proof.Machine.execBcc d s
  | .bcs d => Sys2Proof.Machine.execBcs d s
  | .bne d => Sys2Proof.Machine.execBne d s
  | .beq d => Sys2Proof.Machine.execBeq d s
  | .jmpAbsolute a => Sys2Proof.Machine.execJmpAbsolute a s
  | .jmpIndirect p => Sys2Proof.Machine.execJmpIndirect p s
  | .jsr a => Sys2Proof.Machine.execJsr a s
  | .rts => Sys2Proof.Machine.execRts s
  | .brk => Sys2Proof.Machine.execBrk s
  | .rti => Sys2Proof.Machine.execRti s
  | .pha => Sys2Proof.Machine.execPha s
  | .php => Sys2Proof.Machine.execPhp s
  | .pla => Sys2Proof.Machine.execPla s
  | .plp => Sys2Proof.Machine.execPlp s
  | .tsx => Sys2Proof.Machine.execTsx s
  | .txs => Sys2Proof.Machine.execTxs s
  | .clc => Sys2Proof.Machine.execClc s
  | .sec => Sys2Proof.Machine.execSec s
  | .cli => Sys2Proof.Machine.execCli s
  | .sei => Sys2Proof.Machine.execSei s
  | .cld => Sys2Proof.Machine.execCld s
  | .sed => Sys2Proof.Machine.execSed s
  | .clv => Sys2Proof.Machine.execClv s
  | .nop => Sys2Proof.Machine.execNop s

end Sys2Proof.Machine
end

