-- ==== Sys2Proof/Machine/Fetch.lean ====
section
/-! DEFINITION. Fetching an instruction (40_sequencer_addressing.md R71, R72, and the operand reads of R75 to R85), and placing one
where the machine fetches. -/

namespace Sys2Proof.Machine

/-- The address of the instruction's byte number `k`: the opcode is at PC_op, the first operand byte at PC_op + 1 mod 65536
(10_state.md R15), and the second is the next address after that, not wrapped (20_memory.md R32). -/
def fetchAddr (pc : Word) : Nat → Nat
  | 0 => pc.toNat
  | k + 1 => (pc + 1#16).toNat + k

/-- The operand a form still waits for, read from memory (R75 to R85). -/
def fetchOperand (s : State) : Form → Except Fault Instr
  | .bare i => .ok i
  | .byte f => (memRead s (fetchAddr s.pc 1)).map f
  | .word f => (memReadWord s (fetchAddr s.pc 1)).map f

/-- Fetch and decode (R71, R72): an undefined opcode faults before any operand byte is read. -/
def fetch (s : State) : Except Fault Instr :=
  match memRead s (fetchAddr s.pc 0) with
  | .error f => .error f
  | .ok op => match formOf op with
    | none => .error (.undefinedOpcode op)
    | some form => fetchOperand s form

/-- One byte placed in memory where memory has that address. -/
def placeByte (s : State) (a : Nat) (v : Byte) : State :=
  if a < s.cfg.memSize then { s with mem := s.mem.set a v } else s

/-- Bytes placed at the addresses the machine fetches an instruction's bytes from, starting with byte number `k`. -/
def placeFrom (s : State) : Nat → List Byte → State
  | _, [] => s
  | k, b :: bs => placeFrom (placeByte s (fetchAddr s.pc k) b) (k + 1) bs

end Sys2Proof.Machine
end

