-- ==== Sys2Proof/Machine/Step.lean ====
section
/-! DEFINITION. One step (40_sequencer_addressing.md R70): fetch, decode and read the operand bytes, then execute. -/

namespace Sys2Proof.Machine

/-- `step` (R70): the next state, a fault or a refusal; the last two leave the machine in the state it had (R87). -/
def step (s : State) : Host.Outcome State Fault Refusal :=
  match fetch s with
  | .error f => .fault f
  | .ok i => exec i s

/-- The state with an opcode-table word placed where the next step fetches: three bytes, the longest instruction (DESIGN CHOICE, log entry 4). -/
def State.withFetchWord (s : State) (nbits w : Nat) : State := placeFrom s 0 (tableBytes nbits w)

end Sys2Proof.Machine
end

