-- ==== Sys2Proof/Machine/Access.lean ====
section
/-! DEFINITION. The byte accesses of a step, in the order the rules list them (20_memory.md R37, R40, 60_exceptions.md R205,
70_reset_and_hazards.md R238). It is a second description of the step, apart from `step` itself: the addresses a step would reach if
every access succeeded. An address computed from memory is computed from the bytes there, out of range or not, because an access
that comes after a failing one is never made (DESIGN CHOICE, log entry 9). -/

namespace Sys2Proof.Machine

/-- What an access is for (20_memory.md R37, 60_exceptions.md R200). -/
inductive AccessKind where
  | opcodeFetch
  | operandFetch
  | pointerRead
  | valueRead
  | store
  | push
  | pull
  | vectorRead
  deriving DecidableEq, Repr

/-- One byte access. -/
structure Access where
  kind : AccessKind
  addr : Nat
  deriving DecidableEq, Repr

/-- The word that two consecutive memory bytes hold, whatever their addresses. -/
def peekWord (s : State) (a : Nat) : Word := joinBytes (s.mem.get (a + 1)) (s.mem.get a)

/-- The two reads of a pointer, low byte first (R32). -/
def pointerReads (a : Nat) : List Access := [⟨.pointerRead, a⟩, ⟨.pointerRead, a + 1⟩]

/-- The pointer reads and the effective address of a memory operand (40_sequencer_addressing.md R77 to R85). -/
def targetOf (s : State) : MemOperand → List Access × Nat
  | .zeroPage z => ([], z.toNat)
  | .zeroPageX z => ([], (z + s.x).toNat)
  | .zeroPageY z => ([], (z + s.y).toNat)
  | .absolute a => ([], a.toNat)
  | .absoluteX a => ([], a.toNat + s.x.toNat)
  | .absoluteY a => ([], a.toNat + s.y.toNat)
  | .indirect p => (pointerReads p.toNat, (peekWord s p.toNat).toNat)
  | .indirectX z => (pointerReads (z + s.x).toNat, (peekWord s (z + s.x).toNat).toNat)
  | .indirectY z => (pointerReads z.toNat, (peekWord s z.toNat).toNat + (indexOfIndirectY s).toNat)

/-- The resolver's accesses after the operand bytes: pointer, then value (R73). -/
def resolverAccesses (s : State) : Operand → List Access
  | .implied => []
  | .accumulator => []
  | .immediate _ => []
  | .mem m => (targetOf s m).1 ++ [⟨.valueRead, (targetOf s m).2⟩]

/-- The write of an operation that stores to its operand's address (R103 to R105, R127, R128, R150). -/
def storeAccess (s : State) : Operand → List Access
  | .implied => []
  | .accumulator => []
  | .immediate _ => []
  | .mem m => [⟨.store, (targetOf s m).2⟩]

/-- The pushes that follow one another from the machine's SP down (47_stack.md R180). -/
def pushes (s : State) : Nat → List Access
  | 0 => []
  | n + 1 => pushes s n ++ [⟨.push, stackAddr (s.sp - BitVec.ofNat 8 n)⟩]

/-- The pulls that follow one another from the machine's SP up (R180). -/
def pulls (s : State) : Nat → List Access
  | 0 => []
  | n + 1 => pulls s n ++ [⟨.pull, stackAddr (s.sp + BitVec.ofNat 8 (n + 1))⟩]

/-- The executor's accesses (files 41 to 48). -/
def executorAccesses (s : State) (o : Operand) : Operation → List Access
  | .sta | .stx | .sty | .inc | .dec | .asl | .lsr | .rol | .ror => storeAccess s o
  | .pha | .php => pushes s 1
  | .pla | .plp => pulls s 1
  | .jsr => pushes s 2
  | .rts => pulls s 2
  | .rti => pulls s 3
  | .brk => pushes s 3 ++ [⟨.vectorRead, brkVector⟩, ⟨.vectorRead, brkVector + 1⟩]
  | .lda | .ldx | .ldy | .tax | .tay | .txa | .tya | .adc | .sbc | .cmp | .cpx | .cpy | .inx | .iny | .dex | .dey | .and | .ora | .eor
  | .bit | .bpl | .bmi | .bvc | .bvs | .bcc | .bcs | .bne | .beq | .jmp | .tsx | .txs | .clc | .sec | .cli | .sei | .cld | .sed
  | .clv | .nop => []

/-- The accesses of executing an instruction whose bytes are fetched. -/
def execAccesses (s : State) (i : Instr) : List Access :=
  resolverAccesses s i.operand ++ executorAccesses s i.operand i.operation

/-- The operand fetch of a form, and the instruction it gives. -/
def formAccesses (s : State) : Form → List Access × Instr
  | .bare i => ([], i)
  | .byte f => ([⟨.operandFetch, fetchAddr s.pc 1⟩], f (s.mem.get (fetchAddr s.pc 1)))
  | .word f => ([⟨.operandFetch, fetchAddr s.pc 1⟩, ⟨.operandFetch, fetchAddr s.pc 2⟩], f (peekWord s (fetchAddr s.pc 1)))

/-- Every byte access of a step, in order (R40, R205). -/
def stepAccesses (s : State) : List Access :=
  ⟨.opcodeFetch, fetchAddr s.pc 0⟩ ::
    match formOf (s.mem.get (fetchAddr s.pc 0)) with
    | none => []
    | some form => (formAccesses s form).1 ++ execAccesses s (formAccesses s form).2

/-- The first access of a step that memory does not have (20_memory.md R31, 60_exceptions.md R205). -/
def firstOutOfBounds (s : State) : Option Nat :=
  ((stepAccesses s).find? (fun x => decide (s.cfg.memSize ≤ x.addr))).map Access.addr

end Sys2Proof.Machine
end

