-- ==== Sys2Proof/Machine/Load.lean ====
section
/-! DEFINITION. `load(image)`, the machine's only reset (70_reset_and_hazards.md R230 to R233). -/

namespace Sys2Proof.Machine

/-- What `load` answers (00_scope.md R7). -/
inductive LoadResult where
  | ok (s : State)
  | loadRefused
  deriving DecidableEq, Repr

/-- The byte that memory holds at an address right after the load (R232). `fill` is FILL (00_scope.md R5). -/
def loadedByte (fill : Nat → Byte) (image : List Byte) (a : Nat) : Byte := (image[a]?).getD (fill a)

/-- The cells of `n` addresses from `a` up, those that hold the blank byte left out. -/
def cellsFrom (byteAt : Nat → Byte) : Nat → Nat → Memory
  | _, 0 => []
  | a, n + 1 =>
    if byteAt a = Memory.blank then cellsFrom byteAt (a + 1) n
    else (a, byteAt a) :: cellsFrom byteAt (a + 1) n

/-- `load(image)` on a machine with the parameters `cfg` (R230): the registers of 10_state.md R29, the memory of R232; an image
longer than MEM_SIZE is refused. -/
def load (cfg : Config) (fill : Nat → Byte) (image : List Byte) : LoadResult :=
  if image.length ≤ cfg.memSize then
    .ok { State.reset with cfg := cfg, mem := cellsFrom (loadedByte fill image) 0 cfg.memSize }
  else .loadRefused

end Sys2Proof.Machine
end

