-- ==== Sys2Proof/Machine/Run.lean ====
section
/-! DEFINITION. `multipleSteps(n)`, the control port's way to run a program (40_sequencer_addressing.md R88, 70_reset_and_hazards.md
R239). -/

namespace Sys2Proof.Machine

/-- Why a run failed: the failing step's fault or refusal (R88). -/
inductive Failure where
  | fault (f : Fault)
  | refused (r : Refusal)
  deriving DecidableEq, Repr

/-- How a run ends (R239): completed, or failed with the 0-based index of the failing step and the state before it. -/
inductive RunResult where
  | ok (s : State)
  | failed (k : Nat) (why : Failure) (s : State)
  deriving DecidableEq, Repr

/-- At most `n` steps, the first of which has index `k`. -/
def stepsFrom (k : Nat) : Nat → State → RunResult
  | 0, s => .ok s
  | n + 1, s => match step s with
    | .next t => stepsFrom (k + 1) n t
    | .fault f => .failed k (.fault f) s
    | .refused r => .failed k (.refused r) s

/-- `multipleSteps(S, n)` (R88). -/
def multipleSteps (n : Nat) (s : State) : RunResult := stepsFrom 0 n s

end Sys2Proof.Machine
end

