-- ==== Sys2Proof/Safety.lean ====
section
/-! DEFINITION. The invariant that every reachable state meets, what counts as a safe run, and the words that claims are stated in:
which flags and which bytes an instruction writes, which of several accesses fails first, and how an outcome maps. -/

namespace Sys2Proof.Machine

/-- What every reachable state of a machine with legal parameters meets: MEM_SIZE in its range (00_scope.md R1), memory in its
canonical form with no cell outside its MEM_SIZE bytes (20_memory.md R30), and P with bits 5:4 zero (10_state.md R16, R23). -/
structure State.Inv (s : State) : Prop where
  cfgWf : s.cfg.wf = true
  memWf : s.mem.wf = true
  memWithin : s.mem.within s.cfg.memSize = true
  breakClear : getFlag s.p .b = false
  unusedClear : getFlag s.p .u = false

/-- A safe run of `n` steps: it completes. A run that reaches a refusal is not safe, as it is not when it reaches a fault
(60_exceptions.md R206). -/
def SafeRun (n : Nat) (s : State) : Prop := ∃ t, multipleSteps n s = .ok t

/-- The status `q` is `p` with exactly the listed flags written: a flag not listed keeps its value. All eight bits of P are flags, so
this fixes `q`. -/
def FlagsWritten (p q : Byte) (w : List (Flag × Bool)) : Prop :=
  ∀ f, getFlag q f = (w.lookup f).getD (getFlag p f)

/-- The flags setNZ writes for a result (10_state.md R25). -/
def nzOf (r : Byte) : List (Flag × Bool) := [(.z, decide (r = 0)), (.n, r.getLsbD 7)]

/-- The memory `n` is `m` with exactly the listed bytes written: every other address reads as before. -/
def BytesWritten (m n : Memory) (w : List (Nat × Byte)) : Prop :=
  ∀ a, n.get a = (w.lookup a).getD (m.get a)

/-- The first address of a list that a memory of `size` bytes does not have (60_exceptions.md R205). -/
def firstOut (size : Nat) (l : List Nat) : Option Nat := l.find? (fun a => decide (size ≤ a))

/-- A memory operand resolves to an address: its value is the byte there, and an address out of range is the fault
(40_sequencer_addressing.md R73). -/
def ResolvesAt (s : State) (m : MemOperand) (ea : Nat) : Prop :=
  resolveMem s m = if ea < s.cfg.memSize then .ok { ea := ea, value := s.mem.get ea } else .error (.outOfBounds ea)

/-- An outcome with its next state mapped; a stop stays as it is. -/
def mapNext (g : State → State) : Out → Out
  | .next t => .next (g t)
  | .fault f => .fault f
  | .refused r => .refused r

/-- The opcodes of an operation, each with its mode: exactly those listed decode to it. -/
def EncodedAs (o : Operation) (l : List (Byte × Mode)) : Prop :=
  ∀ op m, decodeOpcode op = some (m, o) ↔ (op, m) ∈ l

end Sys2Proof.Machine
end

