-- ==== Sys2Proof/Certificates/Slice0/Obligations.lean ====
section
/-! DEFINITION. The statements for the provers, one `def Obligations.<Name> : Prop` each, in the order of OBLIGATIONS.json. A next state
written as `{ s with … }` says the frame whole: every field not named is unchanged, memory and the parameters among them. -/

open Sys2Proof Sys2Proof.Machine

/-- For every machine, FILL and image: when the image is at most MEM_SIZE bytes long, load answers a state with that machine's
parameters, A, X, Y, P, SP and PC zero (whatever the bytes at 0xFFFC are), image[k] at every address k below the image's length,
FILL(k) from there to MEM_SIZE - 1, and no byte from MEM_SIZE up. When the image is longer, load is refused. (R29, R230, R231,
R232, R233) -/
def Obligations.LoadBuildsResetState : Prop :=
  ∀ (cfg : Config) (fill : Nat → Byte) (image : List Byte),
    (image.length ≤ cfg.memSize → ∃ s, load cfg fill image = .ok s ∧
      s.cfg = cfg ∧ s.a = 0 ∧ s.x = 0 ∧ s.y = 0 ∧ s.p = 0 ∧ s.sp = 0 ∧ s.pc = 0 ∧
      (∀ k b, image[k]? = some b → memRead s k = .ok b) ∧
      (∀ k, image.length ≤ k → k < cfg.memSize → memRead s k = .ok (fill k)) ∧
      (∀ k, cfg.memSize ≤ k → memRead s k = .error (.outOfBounds k))) ∧
    (cfg.memSize < image.length → load cfg fill image = .loadRefused)

/-- The model's State.reset is the state that load builds from an empty image on a machine with the default parameters and FILL
= 0. The defaults and FILL = 0 at State.reset are the model's choice (log entries 2 and 3); the spec leaves them to the launch.
(70_reset_and_hazards.md section 1, 95_test_vectors.md conventions (default launch), log entries 2 and 3; derived) -/
def Obligations.ResetIsLoadOfEmptyImage : Prop :=
  load Config.default (fun _ => 0) [] = .ok State.reset

/-- State.reset has a legal MEM_SIZE, canonical memory inside it, and P with bits 5:4 zero. That reset memory lists nothing is
the model's choice (log entry 3). (10_state.md section 3, 20_memory.md section 1, log entry 3; derived) -/
def Obligations.ResetMeetsInvariant : Prop :=
  State.reset.Inv

/-- For every machine with 1 <= MEM_SIZE <= 65536, every FILL and every image, a state that load answers has canonical memory
inside MEM_SIZE and P with bits 5:4 zero. The canonical form is the model's own (log entry 3). (10_state.md section 3,
70_reset_and_hazards.md section 1, log entry 3; derived) -/
def Obligations.LoadMeetsInvariant : Prop :=
  ∀ (cfg : Config) (fill : Nat → Byte) (image : List Byte) (s : State),
    cfg.wf = true → load cfg fill image = .ok s → s.Inv

/-- For every state that meets the invariant, reachable or not, a step that answers a next state answers one that meets it:
MEM_SIZE stays legal, memory stays canonical and inside MEM_SIZE (the model's form, log entry 3), and bits 5 and 4 of P stay
zero, as 10_state.md infers from its rules for BRK, PHP, PLP and RTI. (10_state.md section 3 (P bits 5:4, derived there),
20_memory.md section 1, log entry 3; derived) -/
def Obligations.StepKeepsInvariant : Prop :=
  ∀ s t : State, s.Inv → step s = .next t → t.Inv

/-- For every machine with legal parameters, every FILL, image and step count: in the state of a completed run, and in the state
a failed run reports, bits 5 and 4 of P read as zero. 10_state.md marks this sentence as its own inference. (10_state.md section
3 ("holds in every reachable state", derived there); derived) -/
def Obligations.ReachableStatusBitsReadZero : Prop :=
  ∀ (cfg : Config) (fill : Nat → Byte) (image : List Byte) (n : Nat) (s t : State),
    cfg.wf = true → load cfg fill image = .ok s →
    (multipleSteps n s = .ok t ∨ ∃ k e, multipleSteps n s = .failed k e t) →
    t.p &&& 0x30#8 = 0

/-- For every instruction, every value of its operand, either IMM_WIDTH and any bytes after it: decode of its encoding followed
by those bytes is the instruction and those bytes. (30_encoding.md sections 1 to 3 and 5; derived) -/
def Obligations.DecodeOfEncodeIsIdentity : Prop :=
  ∀ (w : ImmWidth) (i : Instr) (rest : List Byte), decode w (encode w i ++ rest) = .ok (i, rest)

/-- Whenever bytes decode to an instruction and a rest, they begin with that instruction's opcode and operand bytes, and the
rest is what follows the first length(op) bytes. So each sequence of bytes has one meaning, and the byte that IMM_WIDTH = 2 adds
may hold anything or be missing. (30_encoding.md sections 1 and 2; derived) -/
def Obligations.DecodedBytesBeginWithEncoding : Prop :=
  ∀ (w : ImmWidth) (i : Instr) (bytes rest : List Byte),
    decode w bytes = .ok (i, rest) → i.bytes <+: bytes ∧ rest = bytes.drop (i.length w)

/-- Widths: Implied and Accumulator 0; Immediate 1 or 2 by IMM_WIDTH; ZeroPage, ZeroPageX, ZeroPageY, IndirectX and IndirectY 1;
Absolute, AbsoluteX, AbsoluteY and Indirect 2. Every instruction's encoding begins with its opcode and is 1 + width bytes long,
whatever its operand, and the opcode alone gives that length. An undefined opcode has none. (R51, R57) -/
def Obligations.EncodingLengths : Prop :=
  (modeWidth .one .immediate = 1 ∧ modeWidth .two .immediate = 2) ∧
  (∀ w, (∀ m ∈ [Mode.implied, .accumulator], modeWidth w m = 0) ∧
    (∀ m ∈ [Mode.zeroPage, .zeroPageX, .zeroPageY, .indirectX, .indirectY], modeWidth w m = 1) ∧
    (∀ m ∈ [Mode.absolute, .absoluteX, .absoluteY, .indirect], modeWidth w m = 2)) ∧
  (∀ (w : ImmWidth) (i : Instr), (encode w i).head? = some i.opcode ∧
    (encode w i).length = 1 + modeWidth w i.mode ∧ opcodeLength w i.opcode = some (1 + modeWidth w i.mode)) ∧
  (∀ w, ∀ op ∈ undefinedOpcodes, opcodeLength w op = none)

/-- An opcode decodes to no pair exactly when it is one of the 105 of R55; decoding it is the UndefinedOpcode error whatever
bytes follow; and in every state whose byte at PC is one of them the step faults with UndefinedOpcode of that byte, so nothing
changes (a fault answers no state). (R55, R202) -/
def Obligations.UndefinedOpcodesFault : Prop :=
  (∀ op, decodeOpcode op = none ↔ op ∈ undefinedOpcodes) ∧
  (∀ w rest, ∀ op ∈ undefinedOpcodes, decode w (op :: rest) = .error (.undefinedOpcode op)) ∧
  (∀ (s : State), ∀ op ∈ undefinedOpcodes, memRead s s.pc.toNat = .ok op → step s = .fault (.undefinedOpcode op))

/-- One word or more of every family, written byte by byte from 30_encoding.md, decodes to its instruction: operands in place,
16-bit operands low byte first, the pad byte of IMM_WIDTH = 2 skipped, an undefined opcode and a cut-off instruction refused.
(30_encoding.md sections 3 and 6; derived) -/
def Obligations.SampleWordsDecode : Prop :=
  decode .one [0xA9, 0x05, 0x00] = .ok (.ldaImmediate 0x05, [0x00]) ∧
  decode .two [0xA9, 0x05, 0x77, 0x00] = .ok (.ldaImmediate 0x05, [0x00]) ∧
  decode .one [0x9D, 0x00, 0x02] = .ok (.staAbsoluteX 0x0200, []) ∧
  decode .one [0x71, 0x40] = .ok (.adcIndirectY 0x40, []) ∧
  decode .one [0x21, 0x20] = .ok (.andIndirectX 0x20, []) ∧
  decode .one [0x6A] = .ok (.rorAccumulator, []) ∧
  decode .one [0xD0, 0xFA] = .ok (.bne 0xFA, []) ∧
  decode .one [0x6C, 0xFF, 0x12] = .ok (.jmpIndirect 0x12FF, []) ∧
  decode .one [0x20, 0x34, 0x12] = .ok (.jsr 0x1234, []) ∧
  decode .one [0x96, 0xFF] = .ok (.stxZeroPageY 0xFF, []) ∧
  decode .one [0x28] = .ok (.plp, []) ∧
  decode .one [0xF8] = .ok (.sed, []) ∧
  decode .one [0x02, 0x00] = .error (.undefinedOpcode 0x02) ∧
  decode .one [0xAD, 0x34] = .error .truncated

/-- Every pair an opcode decodes to is a mode its operation has by the table by mnemonic, and every (operation, mode) pair of
that table is the decoding of exactly one opcode. (30_encoding.md section 3 (the grid and the table by mnemonic); derived) -/
def Obligations.OpcodeMapMatchesMnemonicTable : Prop :=
  (∀ op m o, decodeOpcode op = some (m, o) → m ∈ legalModes o) ∧
  (∀ o, ∀ m ∈ legalModes o, ∃ op, decodeOpcode op = some (m, o) ∧ ∀ op', decodeOpcode op' = some (m, o) → op' = op)

/-- In every state and for every address, a natural number of any size: below MEM_SIZE the read answers the byte memory holds
there, at or above MEM_SIZE it raises OutOfBounds of that address. (R31) -/
def Obligations.ByteReadChecksBounds : Prop :=
  ∀ (s : State) (a : Nat),
    (a < s.cfg.memSize → memRead s a = .ok (s.mem.get a)) ∧
    (s.cfg.memSize ≤ a → memRead s a = .error (.outOfBounds a))

/-- In every state and for every address: when addr + 1 is below MEM_SIZE the word read is mem[addr] + 256 * mem[addr + 1]; when
addr is at or above MEM_SIZE it raises OutOfBounds(addr); when only addr + 1 is, OutOfBounds(addr + 1). No address wraps. (R32)
-/
def Obligations.WordReadIsLittleEndian : Prop :=
  ∀ (s : State) (a : Nat),
    (a + 1 < s.cfg.memSize → ∃ w, memReadWord s a = .ok w ∧
      w.toNat = (s.mem.get a).toNat + 256 * (s.mem.get (a + 1)).toNat) ∧
    (s.cfg.memSize ≤ a → memReadWord s a = .error (.outOfBounds a)) ∧
    (s.cfg.memSize = a + 1 → memReadWord s a = .error (.outOfBounds (a + 1)))

/-- In every state with canonical memory: a write below MEM_SIZE succeeds, changes no register, makes that one address read as v
and every other read as before, and keeps the canonical form; at or above MEM_SIZE it raises OutOfBounds(addr). The write stands
in the state the step will answer, which is the model's form of a staged write (log entry 6). (20_memory.md section 2, log
entries 3 and 6; derived) -/
def Obligations.ByteWriteChangesOneByte : Prop :=
  ∀ (s : State) (a : Nat) (v : Byte), s.mem.wf = true →
    (a < s.cfg.memSize → ∃ n, memWrite s a v = .ok { s with mem := n } ∧ BytesWritten s.mem n [(a, v)] ∧ n.wf = true) ∧
    (s.cfg.memSize ≤ a → memWrite s a v = .error (.outOfBounds a))

/-- Let bytes decode to i, and let memory hold i's opcode at PC and its operand bytes at PC + 1 mod 65536 and the address after
that: then step is exec i at the same state. Nothing else stands around exec: i's own meaning moves PC (log entry 5). The pad
byte of IMM_WIDTH = 2 need not be in memory. (40_sequencer_addressing.md section 1, 10_state.md section 2, log entry 5; derived)
-/
def Obligations.StepRunsDecodedInstruction : Prop :=
  ∀ (s : State) (bytes rest : List Byte) (i : Instr),
    decode s.cfg.immWidth bytes = .ok (i, rest) → i.wf = true →
    (∀ b, bytes[0]? = some b → memRead s s.pc.toNat = .ok b) →
    (∀ b, 1 < i.bytes.length → bytes[1]? = some b → memRead s (s.pc + 1).toNat = .ok b) →
    (∀ b, 2 < i.bytes.length → bytes[2]? = some b → memRead s ((s.pc + 1).toNat + 1) = .ok b) →
    step s = exec i s

/-- In every state: PC at or above MEM_SIZE faults with OutOfBounds(PC). When the opcode at PC has a one-byte operand field and
PC + 1 mod 65536 is out of range, the step faults with that address; when it has a two-byte field, with the lower of the two
operand addresses that is out of range, the second not wrapped. (40_sequencer_addressing.md sections 1 and 2, 60_exceptions.md
section 1; derived) -/
def Obligations.FetchFaults : Prop :=
  ∀ s : State,
    (s.cfg.memSize ≤ s.pc.toNat → step s = .fault (.outOfBounds s.pc.toNat)) ∧
    (∀ op m o, memRead s s.pc.toNat = .ok op → decodeOpcode op = some (m, o) →
      (m ∈ [Mode.immediate, .zeroPage, .zeroPageX, .zeroPageY, .indirectX, .indirectY] →
        s.cfg.memSize ≤ (s.pc + 1).toNat → step s = .fault (.outOfBounds (s.pc + 1).toNat)) ∧
      (m ∈ [Mode.absolute, .absoluteX, .absoluteY, .indirect] →
        (s.cfg.memSize ≤ (s.pc + 1).toNat → step s = .fault (.outOfBounds (s.pc + 1).toNat)) ∧
        (s.cfg.memSize = (s.pc + 1).toNat + 1 → step s = .fault (.outOfBounds ((s.pc + 1).toNat + 1)))))

/-- In every state: the operand value is A in Accumulator mode and 0 in Implied mode, neither reaches memory, and PC_seq is PC +
1. In Immediate mode the value is the byte the step read at PC + 1, and PC_seq is PC + 2 under IMM_WIDTH = 1 and PC + 3 under
IMM_WIDTH = 2. (R74, R75, R76) -/
def Obligations.RegisterModesResolve : Prop :=
  ∀ s : State,
    (operandValue s .accumulator = .ok s.a ∧ pcSeq s .accumulator = s.pc + 1) ∧
    (operandValue s .implied = .ok 0 ∧ pcSeq s .implied = s.pc + 1) ∧
    (∀ v, operandValue s (.immediate v) = .ok v ∧
      (s.cfg.immWidth = .one → pcSeq s (.immediate v) = s.pc + 2) ∧
      (s.cfg.immWidth = .two → pcSeq s (.immediate v) = s.pc + 3) ∧
      (∀ i, fetch s = .ok i → i.operand = .immediate v → memRead s (s.pc + 1).toNat = .ok v))

/-- In every state and for every operand byte z: the three modes resolve to the addresses z, (z + X) mod 256 and (z + Y) mod
256, with the byte there as value and OutOfBounds of that address when it is at or above MEM_SIZE. PC_seq is PC + 2, and the
operand z of a fetched instruction is the byte at PC + 1. (R77, R79, R80) -/
def Obligations.ZeroPageModesResolve : Prop :=
  ∀ (s : State) (z : Byte),
    ResolvesAt s (.zeroPage z) z.toNat ∧
    ResolvesAt s (.zeroPageX z) ((z.toNat + s.x.toNat) % 256) ∧
    ResolvesAt s (.zeroPageY z) ((z.toNat + s.y.toNat) % 256) ∧
    (∀ m ∈ [MemOperand.zeroPage z, .zeroPageX z, .zeroPageY z], pcSeq s (.mem m) = s.pc + 2 ∧
      ∀ i, fetch s = .ok i → i.operand = .mem m → memRead s (s.pc + 1).toNat = .ok z)

/-- In every state and for every 16-bit operand a: the three modes resolve to the addresses a, a + X and a + Y as naturals,
never reduced, with the byte there as value and OutOfBounds of that address when it is at or above MEM_SIZE. PC_seq is PC + 3,
and the operand of a fetched instruction is the little-endian word at PC + 1. (R78, R81, R82) -/
def Obligations.AbsoluteModesResolve : Prop :=
  ∀ (s : State) (a : Word),
    ResolvesAt s (.absolute a) a.toNat ∧
    ResolvesAt s (.absoluteX a) (a.toNat + s.x.toNat) ∧
    ResolvesAt s (.absoluteY a) (a.toNat + s.y.toNat) ∧
    (∀ m ∈ [MemOperand.absolute a, .absoluteX a, .absoluteY a], pcSeq s (.mem m) = s.pc + 3 ∧
      ∀ i, fetch s = .ok i → i.operand = .mem m → memReadWord s (s.pc + 1).toNat = .ok a)

/-- In every state: Indirect p resolves to the word at p; IndirectX z to the word at (z + X) mod 256; IndirectY z to the word at
z plus Y, or plus X under INDY_INDEX = X, as a natural that is not reduced. The pointer is read as a plain word, so at 0xFF its
high byte is at 0x0100, and a pointer out of range faults as that word read does. The value is the byte at the address, or
OutOfBounds of it. PC_seq is PC + 3 for Indirect and PC + 2 for the others, and the operand of a fetched instruction is the word
or byte at PC + 1. (R83, R84, R85) -/
def Obligations.PointerModesResolve : Prop :=
  ∀ (s : State) (p : Word) (z : Byte),
    (∀ w, memReadWord s p.toNat = .ok w → ResolvesAt s (.indirect p) w.toNat) ∧
    (∀ f, memReadWord s p.toNat = .error f → resolveMem s (.indirect p) = .error f) ∧
    (∀ w, memReadWord s ((z.toNat + s.x.toNat) % 256) = .ok w → ResolvesAt s (.indirectX z) w.toNat) ∧
    (∀ f, memReadWord s ((z.toNat + s.x.toNat) % 256) = .error f → resolveMem s (.indirectX z) = .error f) ∧
    (∀ w, memReadWord s z.toNat = .ok w →
      (s.cfg.indyIndex = .y → ResolvesAt s (.indirectY z) (w.toNat + s.y.toNat)) ∧
      (s.cfg.indyIndex = .x → ResolvesAt s (.indirectY z) (w.toNat + s.x.toNat))) ∧
    (∀ f, memReadWord s z.toNat = .error f → resolveMem s (.indirectY z) = .error f) ∧
    (pcSeq s (.mem (.indirect p)) = s.pc + 3 ∧
      ∀ i, fetch s = .ok i → i.operand = .mem (.indirect p) → memReadWord s (s.pc + 1).toNat = .ok p) ∧
    (∀ m ∈ [MemOperand.indirectX z, .indirectY z], pcSeq s (.mem m) = s.pc + 2 ∧
      ∀ i, fetch s = .ok i → i.operand = .mem m → memRead s (s.pc + 1).toNat = .ok z)

/-- For every instruction with a memory operand, stores, JMP and JSR among them, and every state: when the resolver faults, on a
pointer byte or on the read of the value at the effective address, exec faults with the same fault. (40_sequencer_addressing.md
section 2, 60_exceptions.md section 1; derived) -/
def Obligations.ResolverFaultStopsEveryOperation : Prop :=
  ∀ (i : Instr) (m : MemOperand) (s : State) (f : Fault),
    i.operand = .mem m → resolveMem s m = .error f → exec i s = .fault f

/-- For every status byte and result: after setNZ, Z tells whether the result is zero, N is its bit 7, and the other six bits of
P are as before. (R25) -/
def Obligations.SetNZWritesZAndN : Prop :=
  ∀ p r : Byte, FlagsWritten p (setNZ p r) [(.z, decide (r = 0)), (.n, r.getLsbD 7)]

/-- The opcodes of LDA, LDX and LDY are those of R100 to R102. For each of their instructions in every state whose operand
resolves, exec answers the state with that value in the register, Z and N set from it, PC at PC_seq and nothing else changed.
When the resolver faults, exec faults with the same fault. (R100, R101, R102) -/
def Obligations.LoadsWriteRegisterAndNZ : Prop :=
  (EncodedAs .lda [(0xA9, .immediate), (0xA5, .zeroPage), (0xB5, .zeroPageX), (0xAD, .absolute),
      (0xBD, .absoluteX), (0xB9, .absoluteY), (0xA1, .indirectX), (0xB1, .indirectY)] ∧
    EncodedAs .ldx [(0xA2, .immediate), (0xA6, .zeroPage), (0xB6, .zeroPageY), (0xAE, .absolute), (0xBE, .absoluteY)] ∧
    EncodedAs .ldy [(0xA0, .immediate), (0xA4, .zeroPage), (0xB4, .zeroPageX), (0xAC, .absolute), (0xBC, .absoluteX)]) ∧
  ∀ (i : Instr) (s : State),
    (∀ v, operandValue s i.operand = .ok v → ∃ q, FlagsWritten s.p q (nzOf v) ∧
      (i.operation = .lda → exec i s = .next { s with a := v, p := q, pc := pcSeq s i.operand }) ∧
      (i.operation = .ldx → exec i s = .next { s with x := v, p := q, pc := pcSeq s i.operand }) ∧
      (i.operation = .ldy → exec i s = .next { s with y := v, p := q, pc := pcSeq s i.operand })) ∧
    (∀ f, operandValue s i.operand = .error f → i.operation ∈ [.lda, .ldx, .ldy] → exec i s = .fault f)

/-- The opcodes of STA, STX and STY are those of R103 to R105. For each of their instructions in every state with canonical
memory whose operand resolves to ea, exec answers the state in which ea reads as A, X or Y, every other address reads as before,
PC is PC_seq and nothing else changed. When the resolver faults (it reads the byte at ea before the write), exec faults with the
same fault. (R103, R104, R105) -/
def Obligations.StoresWriteOneByte : Prop :=
  (EncodedAs .sta [(0x85, .zeroPage), (0x95, .zeroPageX), (0x8D, .absolute), (0x9D, .absoluteX),
      (0x99, .absoluteY), (0x81, .indirectX), (0x91, .indirectY)] ∧
    EncodedAs .stx [(0x86, .zeroPage), (0x96, .zeroPageY), (0x8E, .absolute)] ∧
    EncodedAs .sty [(0x84, .zeroPage), (0x94, .zeroPageX), (0x8C, .absolute)]) ∧
  ∀ (i : Instr) (m : MemOperand) (s : State), i.operand = .mem m →
    (∀ r, resolveMem s m = .ok r → s.mem.wf = true →
      (i.operation = .sta → ∃ n, BytesWritten s.mem n [(r.ea, s.a)] ∧
        exec i s = .next { s with mem := n, pc := pcSeq s i.operand }) ∧
      (i.operation = .stx → ∃ n, BytesWritten s.mem n [(r.ea, s.x)] ∧
        exec i s = .next { s with mem := n, pc := pcSeq s i.operand }) ∧
      (i.operation = .sty → ∃ n, BytesWritten s.mem n [(r.ea, s.y)] ∧
        exec i s = .next { s with mem := n, pc := pcSeq s i.operand })) ∧
    (∀ f, resolveMem s m = .error f → i.operation ∈ [.sta, .stx, .sty] → exec i s = .fault f)

/-- The opcodes are AA, A8, 8A, 98, BA and 9A, in Implied mode. In every state exec answers the state with the destination
register equal to the source, N and Z set from it (no flag written by TXS), PC + 1 and nothing else changed. (R106, R107, R108,
R109, R185, R186) -/
def Obligations.TransfersCopyRegister : Prop :=
  (EncodedAs .tax [(0xAA, .implied)] ∧
    EncodedAs .tay [(0xA8, .implied)] ∧
    EncodedAs .txa [(0x8A, .implied)] ∧
    EncodedAs .tya [(0x98, .implied)] ∧
    EncodedAs .tsx [(0xBA, .implied)] ∧
    EncodedAs .txs [(0x9A, .implied)]) ∧
  ∀ s : State,
    (∃ q, FlagsWritten s.p q (nzOf s.a) ∧ exec .tax s = .next { s with x := s.a, p := q, pc := s.pc + 1 }) ∧
    (∃ q, FlagsWritten s.p q (nzOf s.a) ∧ exec .tay s = .next { s with y := s.a, p := q, pc := s.pc + 1 }) ∧
    (∃ q, FlagsWritten s.p q (nzOf s.x) ∧ exec .txa s = .next { s with a := s.x, p := q, pc := s.pc + 1 }) ∧
    (∃ q, FlagsWritten s.p q (nzOf s.y) ∧ exec .tya s = .next { s with a := s.y, p := q, pc := s.pc + 1 }) ∧
    (∃ q, FlagsWritten s.p q (nzOf s.sp) ∧ exec .tsx s = .next { s with x := s.sp, p := q, pc := s.pc + 1 }) ∧
    exec .txs s = .next { s with sp := s.x, pc := s.pc + 1 }

/-- For all bytes a and b and both carries in: r is (a + b + cin) mod 256, cout tells whether a + b + cin is 256 or more, and v
tells whether a and b have the same sign and r another, which is the same as the signed sum lying outside -128 to 127. (R120) -/
def Obligations.AdderSumCarryOverflow : Prop :=
  ∀ (a b : Byte) (cin : Bool),
    (add8 a b cin).r.toNat = (a.toNat + b.toNat + cin.toNat) % 256 ∧
    ((add8 a b cin).carry = true ↔ 256 ≤ a.toNat + b.toNat + cin.toNat) ∧
    ((add8 a b cin).overflow = true ↔ a.msb = b.msb ∧ (add8 a b cin).r.msb ≠ a.msb) ∧
    ((add8 a b cin).overflow = true ↔ a.toInt + b.toInt + cin.toNat < -128 ∨ 127 < a.toInt + b.toInt + cin.toNat)

/-- The opcodes of ADC are those of R121. In every state whose operand resolves to v: unless DECIMAL_MODE = refuse and P.D = 1,
exec answers the state with A = (A + v + C) mod 256, C telling whether the sum is 256 or more, V whether the signed sum is
outside -128 to 127, N and Z from the result, PC_seq and nothing else changed; under that refusal condition it is refused for
decimal arithmetic. A resolver fault comes first. (R121) -/
def Obligations.AdcAddsWithCarry : Prop :=
  (EncodedAs .adc [(0x69, .immediate), (0x65, .zeroPage), (0x75, .zeroPageX), (0x6D, .absolute),
      (0x7D, .absoluteX), (0x79, .absoluteY), (0x61, .indirectX), (0x71, .indirectY)]) ∧
  ∀ (i : Instr) (s : State), i.operation = .adc →
    (∀ v, operandValue s i.operand = .ok v →
      (¬ (s.cfg.decimalMode = .refuse ∧ getFlag s.p .d = true) → ∃ r q,
        r = BitVec.ofNat 8 (s.a.toNat + v.toNat + (getFlag s.p .c).toNat) ∧
        FlagsWritten s.p q ([(.c, decide (256 ≤ s.a.toNat + v.toNat + (getFlag s.p .c).toNat)),
          (.v, decide (s.a.toInt + v.toInt + (getFlag s.p .c).toNat < -128 ∨
            127 < s.a.toInt + v.toInt + (getFlag s.p .c).toNat))] ++ nzOf r) ∧
        exec i s = .next { s with a := r, p := q, pc := pcSeq s i.operand }) ∧
      ((s.cfg.decimalMode = .refuse ∧ getFlag s.p .d = true) → exec i s = .refused .decimalArithmetic)) ∧
    (∀ f, operandValue s i.operand = .error f → exec i s = .fault f)

/-- The opcodes of SBC are those of R122. In every state whose operand resolves to v: unless DECIMAL_MODE = refuse and P.D = 1,
exec answers the state with A = A - v - (1 - C) mod 256, C = 1 exactly when A + C - 1 >= v, V = 1 exactly when the signed
difference is outside -128 to 127, N and Z from the result, PC_seq and nothing else changed; under that refusal condition it is
refused for decimal arithmetic. A resolver fault comes first. (R122) -/
def Obligations.SbcSubtractsWithBorrow : Prop :=
  (EncodedAs .sbc [(0xE9, .immediate), (0xE5, .zeroPage), (0xF5, .zeroPageX), (0xED, .absolute),
      (0xFD, .absoluteX), (0xF9, .absoluteY), (0xE1, .indirectX), (0xF1, .indirectY)]) ∧
  ∀ (i : Instr) (s : State), i.operation = .sbc →
    (∀ v, operandValue s i.operand = .ok v →
      (¬ (s.cfg.decimalMode = .refuse ∧ getFlag s.p .d = true) → ∃ r q,
        r = BitVec.ofInt 8 ((s.a.toNat : Int) - v.toNat - (1 - (getFlag s.p .c).toNat)) ∧
        FlagsWritten s.p q ([(.c, decide (v.toNat + 1 ≤ s.a.toNat + (getFlag s.p .c).toNat)),
          (.v, decide (s.a.toInt - v.toInt - (1 - (getFlag s.p .c).toNat) < -128 ∨
            127 < s.a.toInt - v.toInt - (1 - (getFlag s.p .c).toNat)))] ++ nzOf r) ∧
        exec i s = .next { s with a := r, p := q, pc := pcSeq s i.operand }) ∧
      ((s.cfg.decimalMode = .refuse ∧ getFlag s.p .d = true) → exec i s = .refused .decimalArithmetic)) ∧
    (∀ f, operandValue s i.operand = .error f → exec i s = .fault f)

/-- The opcodes are those of R124 to R126. In every state whose operand resolves to v, with reg = A, X or Y: exec answers the
state with C = 1 exactly when reg >= v, Z = 1 exactly when reg = v, N bit 7 of (reg + 256 - v) mod 256, PC_seq and nothing else
changed, whatever P.D holds. When the resolver faults, exec faults with the same fault. (R123, R124, R125, R126) -/
def Obligations.ComparesSetFlagsOnly : Prop :=
  (EncodedAs .cmp [(0xC9, .immediate), (0xC5, .zeroPage), (0xD5, .zeroPageX), (0xCD, .absolute),
      (0xDD, .absoluteX), (0xD9, .absoluteY), (0xC1, .indirectX), (0xD1, .indirectY)] ∧
    EncodedAs .cpx [(0xE0, .immediate), (0xE4, .zeroPage), (0xEC, .absolute)] ∧
    EncodedAs .cpy [(0xC0, .immediate), (0xC4, .zeroPage), (0xCC, .absolute)]) ∧
  ∀ (i : Instr) (s : State),
    (∀ reg v, (i.operation, reg) ∈ [(.cmp, s.a), (.cpx, s.x), (.cpy, s.y)] → operandValue s i.operand = .ok v →
      ∃ q, FlagsWritten s.p q [(.c, decide (v.toNat ≤ reg.toNat)), (.z, decide (reg = v)),
          (.n, (BitVec.ofNat 8 (reg.toNat + 256 - v.toNat)).getLsbD 7)] ∧
        exec i s = .next { s with p := q, pc := pcSeq s i.operand }) ∧
    (∀ f, operandValue s i.operand = .error f → i.operation ∈ [.cmp, .cpx, .cpy] → exec i s = .fault f)

/-- The opcodes are those of R127 and R128. In every state with canonical memory whose operand resolves to ea and value, exec
answers the state in which ea reads as (value + 1) mod 256 for INC and (value + 255) mod 256 for DEC, every other address reads
as before, N and Z come from the result, PC is PC_seq and nothing else changed. When the resolver faults, exec faults with the
same fault. (R127, R128) -/
def Obligations.IncDecMemory : Prop :=
  (EncodedAs .inc [(0xE6, .zeroPage), (0xF6, .zeroPageX), (0xEE, .absolute), (0xFE, .absoluteX)] ∧
    EncodedAs .dec [(0xC6, .zeroPage), (0xD6, .zeroPageX), (0xCE, .absolute), (0xDE, .absoluteX)]) ∧
  ∀ (i : Instr) (m : MemOperand) (s : State), i.operand = .mem m →
    (∀ r b, (i.operation, b) ∈ [(.inc, BitVec.ofNat 8 (r.value.toNat + 1)), (.dec, BitVec.ofNat 8 (r.value.toNat + 255))] →
      resolveMem s m = .ok r → s.mem.wf = true →
      ∃ n q, BytesWritten s.mem n [(r.ea, b)] ∧ FlagsWritten s.p q (nzOf b) ∧
        exec i s = .next { s with mem := n, p := q, pc := pcSeq s i.operand }) ∧
    (∀ f, resolveMem s m = .error f → i.operation ∈ [.inc, .dec] → exec i s = .fault f)

/-- The opcodes are E8, C8, CA and 88, in Implied mode. In every state exec answers the state with X or Y one more or one less
mod 256, N and Z from the result, PC + 1 and nothing else changed (C and V among it). (R129, R130, R131, R132) -/
def Obligations.IncDecIndexRegister : Prop :=
  (EncodedAs .inx [(0xE8, .implied)] ∧
    EncodedAs .iny [(0xC8, .implied)] ∧
    EncodedAs .dex [(0xCA, .implied)] ∧
    EncodedAs .dey [(0x88, .implied)]) ∧
  ∀ s : State,
    (∃ v q, v = BitVec.ofNat 8 (s.x.toNat + 1) ∧ FlagsWritten s.p q (nzOf v) ∧
      exec .inx s = .next { s with x := v, p := q, pc := s.pc + 1 }) ∧
    (∃ v q, v = BitVec.ofNat 8 (s.y.toNat + 1) ∧ FlagsWritten s.p q (nzOf v) ∧
      exec .iny s = .next { s with y := v, p := q, pc := s.pc + 1 }) ∧
    (∃ v q, v = BitVec.ofNat 8 (s.x.toNat + 255) ∧ FlagsWritten s.p q (nzOf v) ∧
      exec .dex s = .next { s with x := v, p := q, pc := s.pc + 1 }) ∧
    (∃ v q, v = BitVec.ofNat 8 (s.y.toNat + 255) ∧ FlagsWritten s.p q (nzOf v) ∧
      exec .dey s = .next { s with y := v, p := q, pc := s.pc + 1 })

/-- The opcodes are those of R140 to R142. In every state whose operand resolves to v, exec answers the state in which each bit
of A is the and, or, or exclusive or of A's and v's bit, N and Z come from the result, PC is PC_seq and nothing else changed.
When the resolver faults, exec faults with the same fault. (R140, R141, R142) -/
def Obligations.LogicalOpsCombineWithA : Prop :=
  (EncodedAs .and [(0x29, .immediate), (0x25, .zeroPage), (0x35, .zeroPageX), (0x2D, .absolute),
      (0x3D, .absoluteX), (0x39, .absoluteY), (0x21, .indirectX), (0x31, .indirectY)] ∧
    EncodedAs .ora [(0x09, .immediate), (0x05, .zeroPage), (0x15, .zeroPageX), (0x0D, .absolute),
      (0x1D, .absoluteX), (0x19, .absoluteY), (0x01, .indirectX), (0x11, .indirectY)] ∧
    EncodedAs .eor [(0x49, .immediate), (0x45, .zeroPage), (0x55, .zeroPageX), (0x4D, .absolute),
      (0x5D, .absoluteX), (0x59, .absoluteY), (0x41, .indirectX), (0x51, .indirectY)]) ∧
  ∀ (i : Instr) (s : State),
    (∀ f v, (i.operation, f) ∈ [(.and, Bool.and), (.ora, Bool.or), (.eor, Bool.xor)] → operandValue s i.operand = .ok v →
      ∃ r q, (∀ k < 8, r.getLsbD k = f (s.a.getLsbD k) (v.getLsbD k)) ∧ FlagsWritten s.p q (nzOf r) ∧
        exec i s = .next { s with a := r, p := q, pc := pcSeq s i.operand }) ∧
    (∀ f, operandValue s i.operand = .error f → i.operation ∈ [.and, .ora, .eor] → exec i s = .fault f)

/-- The opcodes are 24 and 2C. In every state whose operand resolves to v, exec answers the state with Z = 1 exactly when A and
v share no bit, N = v[7], V = v[6], PC_seq and nothing else changed. When the resolver faults, exec faults with the same fault.
(R143) -/
def Obligations.BitTestsOperand : Prop :=
  (EncodedAs .bit [(0x24, .zeroPage), (0x2C, .absolute)]) ∧
  ∀ (i : Instr) (s : State), i.operation = .bit →
    (∀ v, operandValue s i.operand = .ok v →
      ∃ q, FlagsWritten s.p q [(.z, decide (s.a &&& v = 0)), (.n, v.getLsbD 7), (.v, v.getLsbD 6)] ∧
        exec i s = .next { s with p := q, pc := pcSeq s i.operand }) ∧
    (∀ f, operandValue s i.operand = .error f → exec i s = .fault f)

/-- The opcodes are those of R151 to R154. With value v and old carry c the result is 2v, v / 2, 2v + c, v / 2 + 128c mod 256,
and C becomes bit 7, 0, 7, 0 of v. In Accumulator mode v is A and exec answers the state with the result in A; in a memory mode
that resolves to ea and v, with canonical memory, ea reads as the result and every other address as before. Either way C is that
bit, N and Z come from the result, PC is PC_seq and nothing else changed. When the resolver faults, exec faults with the same
fault. (R150, R151, R152, R153, R154) -/
def Obligations.ShiftsRotateThroughCarry : Prop :=
  (EncodedAs .asl [(0x06, .zeroPage), (0x16, .zeroPageX), (0x0E, .absolute), (0x1E, .absoluteX), (0x0A, .accumulator)] ∧
    EncodedAs .lsr [(0x46, .zeroPage), (0x56, .zeroPageX), (0x4E, .absolute), (0x5E, .absoluteX), (0x4A, .accumulator)] ∧
    EncodedAs .rol [(0x26, .zeroPage), (0x36, .zeroPageX), (0x2E, .absolute), (0x3E, .absoluteX), (0x2A, .accumulator)] ∧
    EncodedAs .ror [(0x66, .zeroPage), (0x76, .zeroPageX), (0x6E, .absolute), (0x7E, .absoluteX), (0x6A, .accumulator)]) ∧
  ∀ (i : Instr) (s : State),
    (∀ v r c, (i.operation, r, c) ∈ [
        (.asl, BitVec.ofNat 8 (2 * v.toNat), v.getLsbD 7),
        (.lsr, BitVec.ofNat 8 (v.toNat / 2), v.getLsbD 0),
        (.rol, BitVec.ofNat 8 (2 * v.toNat + (getFlag s.p .c).toNat), v.getLsbD 7),
        (.ror, BitVec.ofNat 8 (v.toNat / 2 + 128 * (getFlag s.p .c).toNat), v.getLsbD 0)] →
      ∃ q, FlagsWritten s.p q ((.c, c) :: nzOf r) ∧
        (i.operand = .accumulator → v = s.a →
          exec i s = .next { s with a := r, p := q, pc := pcSeq s i.operand }) ∧
        (∀ m ea, i.operand = .mem m → resolveMem s m = .ok { ea := ea, value := v } → s.mem.wf = true →
          ∃ n, BytesWritten s.mem n [(ea, r)] ∧
            exec i s = .next { s with mem := n, p := q, pc := pcSeq s i.operand })) ∧
    (∀ m f, i.operand = .mem m → resolveMem s m = .error f → i.operation ∈ [.asl, .lsr, .rol, .ror] →
      exec i s = .fault f)

/-- The opcodes are 10, 30, 50, 70, 90, B0, D0 and F0, in Immediate mode. In every state and for every offset byte d, with
PC_seq = PC + 2 or, under IMM_WIDTH = 2, PC + 3: when N, V, C or Z is 0 for BPL, BVC, BCC, BNE and 1 for BMI, BVS, BCS, BEQ,
exec answers the state with PC = (PC_seq + d) mod 65536, d read as two's complement, and otherwise with PC = PC_seq; nothing
else changes, and the target is not checked. (R160, R161, R162, R163, R164, R165, R166, R167, R168) -/
def Obligations.BranchesAddSignedOffset : Prop :=
  (EncodedAs .bpl [(0x10, .immediate)] ∧
    EncodedAs .bmi [(0x30, .immediate)] ∧
    EncodedAs .bvc [(0x50, .immediate)] ∧
    EncodedAs .bvs [(0x70, .immediate)] ∧
    EncodedAs .bcc [(0x90, .immediate)] ∧
    EncodedAs .bcs [(0xB0, .immediate)] ∧
    EncodedAs .bne [(0xD0, .immediate)] ∧
    EncodedAs .beq [(0xF0, .immediate)]) ∧
  ∀ (d : Byte) (s : State),
    ∀ x ∈ [(Instr.bpl d, Flag.n, false), (.bmi d, .n, true), (.bvc d, .v, false), (.bvs d, .v, true),
      (.bcc d, .c, false), (.bcs d, .c, true), (.bne d, .z, false), (.beq d, .z, true)],
      ∃ next : Word, (s.cfg.immWidth = .one → next = s.pc + 2) ∧ (s.cfg.immWidth = .two → next = s.pc + 3) ∧
        (getFlag s.p x.2.1 = x.2.2 → exec x.1 s = .next { s with pc := BitVec.ofInt 16 (next.toNat + d.toInt) }) ∧
        (getFlag s.p x.2.1 ≠ x.2.2 → exec x.1 s = .next { s with pc := next })

/-- The opcodes are 4C Absolute and 6C Indirect. In every state whose operand resolves to ea, exec answers the state whose PC is
ea, as a number below 65536, and nothing else changed. When the resolver faults, on the pointer or on the byte at the target,
exec faults with the same fault. (R170) -/
def Obligations.JmpSetsPcToEffectiveAddress : Prop :=
  (EncodedAs .jmp [(0x4C, .absolute), (0x6C, .indirect)]) ∧
  ∀ (i : Instr) (m : MemOperand) (s : State), i.operation = .jmp → i.operand = .mem m →
    (∀ r, resolveMem s m = .ok r → ∃ w, w.toNat = r.ea ∧ exec i s = .next { s with pc := w }) ∧
    (∀ f, resolveMem s m = .error f → exec i s = .fault f)

/-- The opcode is 20 Absolute. In every state with canonical memory where the byte at the operand is readable and both stack
bytes are in memory: with ret = PC + 2 mod 65536 (the address of JSR's last byte), exec answers the state in which 0x0100 + SP
reads as ret's high byte, 0x0100 + (SP - 1 mod 256) as its low byte, every other address as before, SP is SP - 2 mod 256, PC is
the operand and nothing else changed. When the operand does not resolve exec faults as the resolver does; else the first stack
byte out of range is the fault. (R171) -/
def Obligations.JsrPushesReturnAddress : Prop :=
  (EncodedAs .jsr [(0x20, .absolute)]) ∧
  ∀ (a : Word) (s : State),
    (∀ r, resolveMem s (.absolute a) = .ok r →
      (s.mem.wf = true → firstOut s.cfg.memSize [0x100 + s.sp.toNat, 0x100 + (s.sp - 1).toNat] = none →
        ∃ n, BytesWritten s.mem n [(0x100 + s.sp.toNat, BitVec.ofNat 8 ((s.pc + 2).toNat / 256)),
            (0x100 + (s.sp - 1).toNat, BitVec.ofNat 8 (s.pc + 2).toNat)] ∧
          exec (.jsr a) s = .next { s with mem := n, sp := s.sp - 2, pc := a }) ∧
      (∀ x, firstOut s.cfg.memSize [0x100 + s.sp.toNat, 0x100 + (s.sp - 1).toNat] = some x →
        exec (.jsr a) s = .fault (.outOfBounds x))) ∧
    (∀ f, resolveMem s (.absolute a) = .error f → exec (.jsr a) s = .fault f)

/-- The opcode is 60. In every state where both stack bytes are in memory, exec answers the state with SP + 2 mod 256 and PC =
(256 * hi + lo + 1) mod 65536, lo the byte at 0x0100 + (SP + 1 mod 256) and hi the byte at 0x0100 + (SP + 2 mod 256), and
nothing else changed. Otherwise the first of them out of range is the fault. (R172) -/
def Obligations.RtsPullsReturnAddress : Prop :=
  (EncodedAs .rts [(0x60, .implied)]) ∧
  ∀ s : State,
    (firstOut s.cfg.memSize [0x100 + (s.sp + 1).toNat, 0x100 + (s.sp + 2).toNat] = none →
      exec .rts s = .next { s with
        sp := s.sp + 2
        pc := BitVec.ofNat 16 (256 * (s.mem.get (0x100 + (s.sp + 2).toNat)).toNat
          + (s.mem.get (0x100 + (s.sp + 1).toNat)).toNat + 1) }) ∧
    (∀ x, firstOut s.cfg.memSize [0x100 + (s.sp + 1).toNat, 0x100 + (s.sp + 2).toNat] = some x →
      exec .rts s = .fault (.outOfBounds x))

/-- The opcode is 00. In every state with canonical memory where the three stack bytes and the vector are in memory: with ret =
PC + 2 mod 65536, exec answers the state in which 0x0100 + SP, + (SP - 1), + (SP - 2) (mod 256) read as ret's high byte, its low
byte and P | 0x30, every other address reads as before, SP is SP - 3, only I of the flags is written, to 1, and PC is the
little-endian word at 0xFFFE. Otherwise the first of these accesses out of range is the fault, and no push is kept. A fault
itself enters no handler: it answers no state. (R173, R209) -/
def Obligations.BrkEntersHandler : Prop :=
  (EncodedAs .brk [(0x00, .implied)]) ∧
  ∀ s : State,
    (s.mem.wf = true → firstOut s.cfg.memSize [0x100 + s.sp.toNat, 0x100 + (s.sp - 1).toNat, 0x100 + (s.sp - 2).toNat, 0xFFFE, 0xFFFF] = none →
      ∃ n q, BytesWritten s.mem n [(0x100 + s.sp.toNat, BitVec.ofNat 8 ((s.pc + 2).toNat / 256)),
          (0x100 + (s.sp - 1).toNat, BitVec.ofNat 8 (s.pc + 2).toNat), (0x100 + (s.sp - 2).toNat, s.p ||| 0x30)] ∧
        FlagsWritten s.p q [(.i, true)] ∧
        exec .brk s = .next { s with
          mem := n, sp := s.sp - 3, p := q,
          pc := BitVec.ofNat 16 (256 * (s.mem.get 0xFFFF).toNat + (s.mem.get 0xFFFE).toNat) }) ∧
    (∀ x, firstOut s.cfg.memSize [0x100 + s.sp.toNat, 0x100 + (s.sp - 1).toNat, 0x100 + (s.sp - 2).toNat, 0xFFFE, 0xFFFF] = some x → exec .brk s = .fault (.outOfBounds x))

/-- The opcode is 40. In every state where the three stack bytes are in memory, exec answers the state with P the byte at 0x0100
+ (SP + 1 mod 256) with bits 5:4 cleared, PC the word whose low byte is at 0x0100 + (SP + 2 mod 256) and high byte at 0x0100 +
(SP + 3 mod 256), SP + 3 and nothing else changed. Otherwise the first of them out of range is the fault. (R174) -/
def Obligations.RtiRestoresStatusAndPc : Prop :=
  (EncodedAs .rti [(0x40, .implied)]) ∧
  ∀ s : State,
    (firstOut s.cfg.memSize [0x100 + (s.sp + 1).toNat, 0x100 + (s.sp + 2).toNat, 0x100 + (s.sp + 3).toNat] = none →
      exec .rti s = .next { s with
        p := s.mem.get (0x100 + (s.sp + 1).toNat) &&& 0xCF
        sp := s.sp + 3
        pc := BitVec.ofNat 16 (256 * (s.mem.get (0x100 + (s.sp + 3).toNat)).toNat
          + (s.mem.get (0x100 + (s.sp + 2).toNat)).toNat) }) ∧
    (∀ x, firstOut s.cfg.memSize [0x100 + (s.sp + 1).toNat, 0x100 + (s.sp + 2).toNat, 0x100 + (s.sp + 3).toNat] = some x → exec .rti s = .fault (.outOfBounds x))

/-- In every state: when 0x0100 + SP is in memory, which is canonical, push makes that address alone read as v and SP becomes SP
- 1 mod 256, else it raises OutOfBounds of that address; with SP' = SP + 1 mod 256, pull answers the byte at 0x0100 + SP' and
the state with SP', or raises OutOfBounds of that address. Neither raises anything else. (R180) -/
def Obligations.PushAndPullPrimitives : Prop :=
  ∀ s : State,
    (∀ v, (s.mem.wf = true → 0x100 + s.sp.toNat < s.cfg.memSize →
        ∃ n, BytesWritten s.mem n [(0x100 + s.sp.toNat, v)] ∧ push v s = .ok { s with mem := n, sp := s.sp - 1 }) ∧
      (s.cfg.memSize ≤ 0x100 + s.sp.toNat → push v s = .error (.outOfBounds (0x100 + s.sp.toNat)))) ∧
    (0x100 + (s.sp + 1).toNat < s.cfg.memSize →
      pull s = .ok (s.mem.get (0x100 + (s.sp + 1).toNat), { s with sp := s.sp + 1 })) ∧
    (s.cfg.memSize ≤ 0x100 + (s.sp + 1).toNat → pull s = .error (.outOfBounds (0x100 + (s.sp + 1).toNat)))

/-- The opcodes are 48 and 08. In every state with canonical memory where 0x0100 + SP is in memory, exec answers the state in
which that address reads as A, or for PHP as P | 0x30, every other address as before, SP is SP - 1 mod 256, PC + 1 and nothing
else changed, P among it. Otherwise exec faults with OutOfBounds of that address. (R181, R182) -/
def Obligations.PhaPhpPushOneByte : Prop :=
  (EncodedAs .pha [(0x48, .implied)] ∧
    EncodedAs .php [(0x08, .implied)]) ∧
  ∀ s : State, ∀ x ∈ [(Instr.pha, s.a), (.php, s.p ||| 0x30)],
    (s.mem.wf = true → 0x100 + s.sp.toNat < s.cfg.memSize →
      ∃ n, BytesWritten s.mem n [(0x100 + s.sp.toNat, x.2)] ∧
        exec x.1 s = .next { s with mem := n, sp := s.sp - 1, pc := s.pc + 1 }) ∧
    (s.cfg.memSize ≤ 0x100 + s.sp.toNat → exec x.1 s = .fault (.outOfBounds (0x100 + s.sp.toNat)))

/-- The opcodes are 68 and 28. In every state where 0x0100 + (SP + 1 mod 256) is in memory and holds b: PLA answers the state
with A = b and N and Z from b, PLP the state with P = b with bits 5:4 cleared; SP is SP + 1 mod 256, PC + 1 and nothing else
changed. Otherwise exec faults with OutOfBounds of that address. (R183, R184) -/
def Obligations.PlaPlpPullOneByte : Prop :=
  (EncodedAs .pla [(0x68, .implied)] ∧
    EncodedAs .plp [(0x28, .implied)]) ∧
  ∀ s : State,
    (0x100 + (s.sp + 1).toNat < s.cfg.memSize → ∃ b, b = s.mem.get (0x100 + (s.sp + 1).toNat) ∧
      (∃ q, FlagsWritten s.p q (nzOf b) ∧
        exec .pla s = .next { s with a := b, p := q, sp := s.sp + 1, pc := s.pc + 1 }) ∧
      exec .plp s = .next { s with p := b &&& 0xCF, sp := s.sp + 1, pc := s.pc + 1 }) ∧
    (s.cfg.memSize ≤ 0x100 + (s.sp + 1).toNat → ∀ i ∈ [Instr.pla, .plp],
      exec i s = .fault (.outOfBounds (0x100 + (s.sp + 1).toNat)))

/-- The opcodes are 18, 38, 58, 78, D8, F8, B8 and EA, in Implied mode. In every state exec answers the state with that one flag
written (C, I, D to 0 or 1, V to 0, none for NOP), the other flags as before, PC + 1 and nothing else changed. (R190, R191,
R192, R193, R194, R195, R196, R197) -/
def Obligations.FlagControlWritesOneFlag : Prop :=
  (EncodedAs .clc [(0x18, .implied)] ∧
    EncodedAs .sec [(0x38, .implied)] ∧
    EncodedAs .cli [(0x58, .implied)] ∧
    EncodedAs .sei [(0x78, .implied)] ∧
    EncodedAs .cld [(0xD8, .implied)] ∧
    EncodedAs .sed [(0xF8, .implied)] ∧
    EncodedAs .clv [(0xB8, .implied)] ∧
    EncodedAs .nop [(0xEA, .implied)]) ∧
  (∀ s : State, ∀ x ∈ [(Instr.clc, Flag.c, false), (.sec, .c, true), (.cli, .i, false), (.sei, .i, true), (.cld, .d, false),
      (.sed, .d, true), (.clv, .v, false)],
    ∃ q, FlagsWritten s.p q [(x.2.1, x.2.2)] ∧ exec x.1 s = .next { s with p := q, pc := s.pc + 1 }) ∧
  ∀ s : State, exec .nop s = .next { s with pc := s.pc + 1 }

/-- For every state with canonical memory and every target: if JSR answers a next state, then RTS from that state answers the
state with the original registers, PC at the JSR's address + 3, and the memory the JSR left. (46_jump_subroutine_break.md (JSR,
RTS), 47_stack.md (push, pull); derived) -/
def Obligations.CallThenReturnResumesAfterCall : Prop :=
  ∀ (a : Word) (s t : State), s.mem.wf = true → exec (.jsr a) s = .next t →
    exec .rts t = .next { s with pc := s.pc + 3, mem := t.mem }

/-- For every state with canonical memory and bits 5:4 of P zero, as in every reachable state: if BRK answers a next state, then
RTI from that state answers the state with the original registers, P among them, PC at the BRK's address + 2, and the memory the
BRK left. (46_jump_subroutine_break.md (BRK, RTI), 60_exceptions.md section 3, 10_state.md section 3; derived) -/
def Obligations.BreakThenReturnSkipsPadding : Prop :=
  ∀ s t : State, s.mem.wf = true → s.p &&& 0x30 = 0 → exec .brk s = .next t →
    exec .rti t = .next { s with pc := s.pc + 2, mem := t.mem }

/-- For every state with canonical memory: if PHP answers a next state and bits 5:4 of P are zero, then PLP from it answers the
original state with PC + 2 and the memory PHP left; if PHA does, then PLA from it answers the original state with N and Z set
from A, PC + 2 and the memory PHA left. (47_stack.md (PHA, PHP, PLA, PLP), 10_state.md section 3; derived) -/
def Obligations.PushThenPullRestores : Prop :=
  ∀ s t : State, s.mem.wf = true →
    (s.p &&& 0x30 = 0 → exec .php s = .next t → exec .plp t = .next { s with pc := s.pc + 2, mem := t.mem }) ∧
    (exec .pha s = .next t →
      ∃ q, FlagsWritten s.p q (nzOf s.a) ∧ exec .pla t = .next { s with p := q, pc := s.pc + 2, mem := t.mem })

/-- For every instruction and state, when exec answers a next state: A is unchanged unless the operation is LDA, ADC, SBC, AND,
ORA, EOR, TXA, TYA, PLA or a shift in Accumulator mode; X unless LDX, INX, DEX, TAX or TSX; Y unless LDY, INY, DEY or TAY; SP
unless TXS, PHA, PHP, PLA, PLP, JSR, RTS, BRK or RTI. 10_state.md infers its tables from the instruction rules. (10_state.md
section 1 (the tables of writers, derived there); derived) -/
def Obligations.RegisterWriters : Prop :=
  ∀ (i : Instr) (s t : State), exec i s = .next t →
    (i.operation ∉ [.lda, .adc, .sbc, .and, .ora, .eor, .txa, .tya, .pla] → i.operand ≠ .accumulator → t.a = s.a) ∧
    (i.operation ∉ [.ldx, .inx, .dex, .tax, .tsx] → t.x = s.x) ∧
    (i.operation ∉ [.ldy, .iny, .dey, .tay] → t.y = s.y) ∧
    (i.operation ∉ [.txs, .pha, .php, .pla, .plp, .jsr, .rts, .brk, .rti] → t.sp = s.sp)

/-- For every instruction and state, when exec answers a next state: C is unchanged unless the operation is ADC, SBC, CMP, CPX,
CPY, ASL, LSR, ROL, ROR, CLC, SEC, PLP or RTI; V unless ADC, SBC, BIT, CLV, PLP or RTI; I unless SEI, CLI, BRK, PLP or RTI; D
unless SED, CLD, PLP or RTI; N and Z are unchanged by every operation but the loads, transfers, TSX, PLA, ADC, SBC, AND, ORA,
EOR, INC, DEC, INX, INY, DEX, DEY, the shifts, the compares, BIT, PLP and RTI; bits 5:4 are unchanged by every operation but PLP
and RTI. (R24) -/
def Obligations.FlagWriters : Prop :=
  ∀ (i : Instr) (s t : State), exec i s = .next t →
    (i.operation ∉ [.adc, .sbc, .cmp, .cpx, .cpy, .asl, .lsr, .rol, .ror, .clc, .sec, .plp, .rti] →
      getFlag t.p .c = getFlag s.p .c) ∧
    (i.operation ∉ [.adc, .sbc, .bit, .clv, .plp, .rti] → getFlag t.p .v = getFlag s.p .v) ∧
    (i.operation ∉ [.sei, .cli, .brk, .plp, .rti] → getFlag t.p .i = getFlag s.p .i) ∧
    (i.operation ∉ [.sed, .cld, .plp, .rti] → getFlag t.p .d = getFlag s.p .d) ∧
    (i.operation ∉ [.lda, .ldx, .ldy, .tax, .tay, .txa, .tya, .tsx, .pla, .adc, .sbc, .and, .ora, .eor, .inc, .dec, .inx, .iny,
        .dex, .dey, .asl, .lsr, .rol, .ror, .cmp, .cpx, .cpy, .bit, .plp, .rti] →
      getFlag t.p .n = getFlag s.p .n ∧ getFlag t.p .z = getFlag s.p .z) ∧
    (i.operation ∉ [.plp, .rti] → getFlag t.p .b = getFlag s.p .b ∧ getFlag t.p .u = getFlag s.p .u)

/-- For every instruction and state, when exec answers a next state: an instruction that is no store, INC, DEC, shift of memory,
PHA, PHP, JSR or BRK leaves memory as it was, as a shift of A does; a store, INC, DEC or shift of memory whose operand resolves
to ea leaves every address but ea reading as before; PHA and PHP every address but 0x0100 + SP; JSR every address but that and
0x0100 + (SP - 1 mod 256); BRK every address but those and 0x0100 + (SP - 2 mod 256). (20_memory.md sections 2 and 5, files 41,
42, 44, 46 and 47 of spec/; derived) -/
def Obligations.MemoryWriters : Prop :=
  ∀ (i : Instr) (s t : State), exec i s = .next t →
    (i.operation ∉ [.sta, .stx, .sty, .inc, .dec, .asl, .lsr, .rol, .ror, .pha, .php, .jsr, .brk] → t.mem = s.mem) ∧
    (i.operand = .accumulator → t.mem = s.mem) ∧
    (∀ m r, i.operation ∈ [.sta, .stx, .sty, .inc, .dec, .asl, .lsr, .rol, .ror] → i.operand = .mem m →
      resolveMem s m = .ok r → ∀ a, a ≠ r.ea → t.mem.get a = s.mem.get a) ∧
    (i.operation ∈ [.pha, .php] → ∀ a, a ≠ 0x100 + s.sp.toNat → t.mem.get a = s.mem.get a) ∧
    (i.operation = .jsr → ∀ a, a ∉ [0x100 + s.sp.toNat, 0x100 + (s.sp - 1).toNat] → t.mem.get a = s.mem.get a) ∧
    (i.operation = .brk → ∀ a, a ∉ [0x100 + s.sp.toNat, 0x100 + (s.sp - 1).toNat, 0x100 + (s.sp - 2).toNat] →
      t.mem.get a = s.mem.get a)

/-- For every instruction but the eight branches, JMP, JSR, RTS, RTI and BRK, and every state: when exec answers a next state,
its PC is PC + 1 + the width of the instruction's mode, mod 65536. (40_sequencer_addressing.md section 4, 10_state.md section 2,
30_encoding.md section 1; derived) -/
def Obligations.SequentialPc : Prop :=
  ∀ (i : Instr) (s t : State), exec i s = .next t →
    i.operation ∉ [.bpl, .bmi, .bvc, .bvs, .bcc, .bcs, .bne, .beq, .jmp, .jsr, .rts, .rti, .brk] →
    t.pc.toNat = (s.pc.toNat + 1 + modeWidth s.cfg.immWidth i.mode) % 65536

/-- For every state, reachable or not: a step that answers a next state, and a completed run of any length, leave the four
parameters as they were. They are not state in the spec; that the model holds them beside the registers is its own choice (log
entry 1). (10_state.md section 4, 00_scope.md section 4, log entry 1; derived) -/
def Obligations.ParametersNeverChange : Prop :=
  (∀ s t : State, step s = .next t → t.cfg = s.cfg) ∧
  (∀ (n : Nat) (s t : State), multipleSteps n s = .ok t → t.cfg = s.cfg)

/-- For every instruction and state, and each of A, X and Y: if the instruction is not among the readers that 10_state.md lists
(for X and Y the indexed addressing modes count, IndirectY by INDY_INDEX), then with any other value in the register it has the
same outcome, fault or next state, but for that register, which keeps the value; and if it writes the register, exactly the same
outcome. 10_state.md infers its tables from the instruction rules. (10_state.md section 1 (the tables of readers, derived
there); derived) -/
def Obligations.RegistersReadOnlyByTheirReaders : Prop :=
  (∀ (i : Instr) (s : State) (v : Byte), i.operation ∉ [.adc, .sbc, .and, .ora, .eor, .bit, .cmp, .sta, .tax, .tay, .pha] →
      i.operand ≠ .accumulator →
    (i.operation ∉ [.lda, .txa, .tya, .pla] →
      exec i { s with a := v } = mapNext (fun t => { t with a := v }) (exec i s)) ∧
    (i.operation ∈ [.lda, .txa, .tya, .pla] → exec i { s with a := v } = exec i s)) ∧
  (∀ (i : Instr) (s : State) (v : Byte), i.operation ∉ [.stx, .cpx, .inx, .dex, .txa, .txs] →
      i.mode ∉ [.zeroPageX, .absoluteX, .indirectX] → (i.mode = .indirectY → s.cfg.indyIndex = .y) →
    (i.operation ∉ [.ldx, .tax, .tsx] →
      exec i { s with x := v } = mapNext (fun t => { t with x := v }) (exec i s)) ∧
    (i.operation ∈ [.ldx, .tax, .tsx] → exec i { s with x := v } = exec i s)) ∧
  (∀ (i : Instr) (s : State) (v : Byte), i.operation ∉ [.sty, .cpy, .iny, .dey, .tya] →
      i.mode ∉ [.zeroPageY, .absoluteY] → (i.mode = .indirectY → s.cfg.indyIndex = .x) →
    (i.operation ∉ [.ldy, .tay] →
      exec i { s with y := v } = mapNext (fun t => { t with y := v }) (exec i s)) ∧
    (i.operation ∈ [.ldy, .tay] → exec i { s with y := v } = exec i s))

/-- For every instruction other than PHP and BRK and every state: with the other value of P.I it has the same outcome but for
P.I itself, which keeps its value unless the instruction is SEI, CLI, PLP or RTI, and then the outcome is exactly the same. The
same holds of P.D, with SED and CLD for SEI and CLI, except for ADC and SBC under DECIMAL_MODE = refuse. (10_state.md section 3
(P.I, P.D), 60_exceptions.md section 2, 00_scope.md section 4 (DECIMAL_MODE); derived) -/
def Obligations.InterruptAndDecimalFlagsMaskNothing : Prop :=
  (∀ (i : Instr) (s : State) (b : Bool), i.operation ∉ [.php, .brk] →
    (i.operation ∉ [.sei, .cli, .plp, .rti] → exec i { s with p := putFlag s.p .i b } =
      mapNext (fun t => { t with p := putFlag t.p .i b }) (exec i s)) ∧
    (i.operation ∈ [.sei, .cli, .plp, .rti] → exec i { s with p := putFlag s.p .i b } = exec i s)) ∧
  (∀ (i : Instr) (s : State) (b : Bool), i.operation ∉ [.php, .brk] →
      (i.operation ∈ [.adc, .sbc] → s.cfg.decimalMode = .binary) →
    (i.operation ∉ [.sed, .cld, .plp, .rti] → exec i { s with p := putFlag s.p .d b } =
      mapNext (fun t => { t with p := putFlag t.p .d b }) (exec i s)) ∧
    (i.operation ∈ [.sed, .cld, .plp, .rti] → exec i { s with p := putFlag s.p .d b } = exec i s))

/-- The numeric codes of OutOfBounds, UndefinedOpcode and ExecutionError are 1, 2 and 3. In every state a step that faults does
so with OutOfBounds of an address at or above MEM_SIZE, or with UndefinedOpcode of the byte at PC, which is one of the 105; no
step faults with ExecutionError. A step that is refused is an ADC or SBC with P.D = 1 under DECIMAL_MODE = refuse, and the
reason is DecimalArithmetic. A failed multipleSteps reports a failing index below its step count. (R200, R203) -/
def Obligations.FailureKinds : Prop :=
  (∀ a op, (Fault.outOfBounds a).code = 1 ∧ (Fault.undefinedOpcode op).code = 2 ∧ Fault.executionError.code = 3) ∧
  (∀ (s : State) (f : Fault), step s = .fault f →
    (∃ a, f = .outOfBounds a ∧ s.cfg.memSize ≤ a) ∨
    (∃ op, f = .undefinedOpcode op ∧ op ∈ undefinedOpcodes ∧ memRead s s.pc.toNat = .ok op)) ∧
  (∀ s : State, step s ≠ .fault .executionError) ∧
  (∀ (s : State) (r : Refusal), step s = .refused r →
    r = .decimalArithmetic ∧ s.cfg.decimalMode = .refuse ∧ getFlag s.p .d = true ∧
    ∃ i, fetch s = .ok i ∧ i.operation ∈ [.adc, .sbc]) ∧
  (∀ (n k : Nat) (s t : State) (e : Failure), multipleSteps n s = .failed k e t → k < n)

/-- For every state, with the accesses of its step listed in the spec's order (the list is the model's own second description,
log entry 9): if one is at or above MEM_SIZE, the step faults with OutOfBounds of the first such; if none is, the step faults
with UndefinedOpcode when the byte at PC is undefined, is refused when it is an ADC or SBC with P.D = 1 under DECIMAL_MODE =
refuse, and otherwise answers a next state. (60_exceptions.md section 1 (the order of failures), 20_memory.md section 5,
40_sequencer_addressing.md section 1, log entry 9; derived) -/
def Obligations.FirstBadAccessIsReported : Prop :=
  ∀ s : State,
    (∀ a, firstOutOfBounds s = some a → step s = .fault (.outOfBounds a)) ∧
    (firstOutOfBounds s = none →
      (s.mem.get s.pc.toNat ∈ undefinedOpcodes → step s = .fault (.undefinedOpcode (s.mem.get s.pc.toNat))) ∧
      (s.mem.get s.pc.toNat ∉ undefinedOpcodes → ∃ i, fetch s = .ok i ∧
        (i.operation ∈ [.adc, .sbc] ∧ s.cfg.decimalMode = .refuse ∧ getFlag s.p .d = true →
          step s = .refused .decimalArithmetic) ∧
        (¬ (i.operation ∈ [.adc, .sbc] ∧ s.cfg.decimalMode = .refuse ∧ getFlag s.p .d = true) →
          ∃ t, step s = .next t)))

/-- In every state the step's list of accesses (log entry 9) has one to six entries, the first of them the opcode fetch at PC;
it has six when the byte at PC is BRK's opcode. 70_reset_and_hazards.md infers the bound from the instruction rules.
(70_reset_and_hazards.md section 3 (derived there), log entry 9; derived) -/
def Obligations.AtMostSixAccesses : Prop :=
  ∀ s : State,
    (stepAccesses s).length ≤ 6 ∧ (stepAccesses s).head? = some { kind := .opcodeFetch, addr := s.pc.toNat } ∧
    (s.mem.get s.pc.toNat = 0x00 → (stepAccesses s).length = 6)

/-- For every state: multipleSteps(0) is the state unchanged; a run of m + n steps completes exactly when a run of m steps does
and a run of n steps from there does, in the same state, and one step completes exactly when step answers that state; a run of n
steps fails at index k with a failure and a state exactly when k < n, the first k steps complete in that state, and the step
from it is that fault or refusal. (R88) -/
def Obligations.MultipleStepsStopsAtFirstFailure : Prop :=
  ∀ s : State,
    multipleSteps 0 s = .ok s ∧
    (∀ t, multipleSteps 1 s = .ok t ↔ step s = .next t) ∧
    (∀ m n t, multipleSteps (m + n) s = .ok t ↔ ∃ u, multipleSteps m s = .ok u ∧ multipleSteps n u = .ok t) ∧
    (∀ n k t f, multipleSteps n s = .failed k (.fault f) t ↔ k < n ∧ multipleSteps k s = .ok t ∧ step t = .fault f) ∧
    (∀ n k t r, multipleSteps n s = .failed k (.refused r) t ↔ k < n ∧ multipleSteps k s = .ok t ∧ step t = .refused r)

/-- For every state with IMM_WIDTH = 2 whose fetched instruction is in Immediate mode: whatever byte is put at PC + 2 mod 65536,
the step has the same outcome but for that byte of memory. 30_encoding.md infers that it is never read. (30_encoding.md section
2 (derived there); derived) -/
def Obligations.PadByteNeverRead : Prop :=
  ∀ (s : State) (i : Instr) (v b : Byte), s.cfg.immWidth = .two → fetch s = .ok i → i.operand = .immediate v →
    step { s with mem := s.mem.set (s.pc + 2).toNat b } =
      mapNext (fun t => { t with mem := t.mem.set (s.pc + 2).toNat b }) (step s)
end

