-- ==== Sys2Proof/Laws/Decode.lean ====
section
/-! SUPPORT. What a cell of the opcode map says: the instructions of a form have the cell's opcode, and their operand bytes are the
form's; an opcode decodes to a pair exactly when some instruction has that opcode and pair. -/

namespace Sys2Proof

/-- A form at an opcode: each of its instructions has that opcode, the form's operand bytes, and one mode and operation. -/
def Form.Fits (op : Byte) : Form → Prop
  | .bare i => i.opcode = op ∧ i.operand.bytes = []
  | .byte g => ∀ b, (g b).opcode = op ∧ (g b).operand.bytes = [b] ∧ (g b).mode = (g 0).mode ∧
      (g b).operation = (g 0).operation
  | .word g => ∀ w, (g w).opcode = op ∧ (g w).operand.bytes = [loByte w, hiByte w] ∧ (g w).mode = (g 0).mode ∧
      (g w).operation = (g 0).operation

/-- Every cell of the grid fits its opcode. -/
theorem formOf_fits {op : Byte} {f : Form} (h : formOf op = some f) : f.Fits op := by
  have hop : op = BitVec.ofNat 8 op.toNat := by simp
  have hlt := op.isLt
  generalize op.toNat = n at hop hlt
  subst hop
  interval_cases n <;>
    first
    | (injection h with h; subst h; exact ⟨rfl, rfl⟩)
    | (injection h with h; subst h; intro b; exact ⟨rfl, rfl, rfl, rfl⟩)
    | cases h

/-- An instruction of the form has the opcode. -/
theorem Form.Fits.sample_opcode {op : Byte} {f : Form} (h : f.Fits op) : f.sample.opcode = op := by
  cases f with
  | bare i => exact h.1
  | byte g => exact (h 0).1
  | word g => exact (h 0).1

/-- The cell at an instruction's opcode gives that instruction's mode and operation. -/
theorem decodeOpcode_opcode (i : Instr) : decodeOpcode i.opcode = some (i.mode, i.operation) := by
  cases i <;> simp only [Instr.opcode] <;> rfl

/-- An opcode decodes to a pair exactly when an instruction has that opcode, mode and operation. -/
theorem decodeOpcode_eq_some {op : Byte} {m : Mode} {o : Operation} :
    decodeOpcode op = some (m, o) ↔ ∃ i : Instr, i.opcode = op ∧ i.mode = m ∧ i.operation = o := by
  constructor
  · intro h
    cases hf : formOf op with
    | none => simp [decodeOpcode, hf] at h
    | some f =>
      simp only [decodeOpcode, hf, Option.map_some, Option.some.injEq, Prod.mk.injEq] at h
      exact ⟨f.sample, (formOf_fits hf).sample_opcode, h.1, h.2⟩
  · rintro ⟨i, rfl, rfl, rfl⟩
    exact decodeOpcode_opcode i

end Sys2Proof
end

