-- ==== Sys2Proof/Laws/Memory.lean ====
section
/-! SUPPORT. The laws of memory: a read after a write, the canonical form kept by every memory operation, and what the three
transactions can answer. -/

namespace Sys2Proof.Machine

/-! ### Reads after writes -/

/-- A write leaves every other address alone. -/
theorem Memory.get_set_ne (m : Memory) {a b : Nat} (v : Byte) (h : b ≠ a) : (m.set a v).get b = m.get b := by
  induction m with
  | nil =>
    simp only [Memory.set]
    split <;> simp [Memory.get, h.symm]
  | cons c m ih =>
    obtain ⟨k, w⟩ := c
    simp only [Memory.set]
    split
    · split <;> simp [Memory.get, h.symm]
    · split
      · subst_vars
        split <;> simp [Memory.get, h.symm]
      · simp [Memory.get, ih]

/-- Below its first address a sorted memory reads blank. -/
theorem Memory.get_of_risesAbove {m : Memory} {lo : Nat} (h : Memory.risesAbove lo m = true) {a : Nat} (ha : a ≤ lo) :
    m.get a = Memory.blank := by
  induction m generalizing lo with
  | nil => rfl
  | cons c m ih =>
    obtain ⟨k, w⟩ := c
    simp only [Memory.risesAbove, Bool.and_eq_true, decide_eq_true_eq] at h
    have hk : ¬ k = a := by omega
    simp [Memory.get, hk, ih h.2 (by omega : a ≤ k)]

/-- Sortedness, one cell at a time. -/
theorem Memory.sorted_cons (k : Nat) (w : Byte) (m : Memory) :
    Memory.sorted ((k, w) :: m) = Memory.risesAbove k m := rfl

/-- Rising above an address implies sorted. -/
theorem Memory.sorted_of_risesAbove {lo : Nat} {m : Memory} (h : Memory.risesAbove lo m = true) : m.sorted = true := by
  cases m with
  | nil => rfl
  | cons c m =>
    obtain ⟨k, w⟩ := c
    simp only [Memory.risesAbove, Bool.and_eq_true] at h
    exact h.2

/-- Rising above an address implies rising above a lower one. -/
theorem Memory.risesAbove_mono {lo lo' : Nat} {m : Memory} (h : Memory.risesAbove lo m = true) (hl : lo' ≤ lo) :
    Memory.risesAbove lo' m = true := by
  cases m with
  | nil => rfl
  | cons c m =>
    obtain ⟨k, w⟩ := c
    simp only [Memory.risesAbove, Bool.and_eq_true, decide_eq_true_eq] at h ⊢
    exact ⟨by omega, h.2⟩

/-- In a sorted memory a read of the written address gives the byte written. -/
theorem Memory.get_set_same {m : Memory} (h : m.sorted = true) (a : Nat) (v : Byte) : (m.set a v).get a = v := by
  induction m with
  | nil =>
    simp only [Memory.set]
    split
    · subst_vars
      rfl
    · simp [Memory.get]
  | cons c m ih =>
    obtain ⟨k, w⟩ := c
    rw [Memory.sorted_cons] at h
    simp only [Memory.set]
    split
    · next hk =>
      have hk' : ¬ k = a := by omega
      split
      · next hv =>
        rw [hv]
        simp [Memory.get, hk', Memory.get_of_risesAbove h (by omega : a ≤ k)]
      · simp [Memory.get]
    · split
      · next hk =>
        subst hk
        split
        · next hv =>
          rw [hv]
          exact Memory.get_of_risesAbove h (le_refl _)
        · simp [Memory.get]
      · next h1 h2 =>
        have hk' : ¬ k = a := fun e => h2 e.symm
        simp [Memory.get, hk', ih (Memory.sorted_of_risesAbove h)]

/-! ### The canonical form -/

theorem Memory.risesAbove_set {m : Memory} {lo : Nat} (h : Memory.risesAbove lo m = true) {a : Nat} (v : Byte) (ha : lo < a) :
    Memory.risesAbove lo (m.set a v) = true := by
  induction m generalizing lo with
  | nil =>
    simp only [Memory.set]
    split <;> simp [Memory.risesAbove, ha]
  | cons c m ih =>
    obtain ⟨k, w⟩ := c
    have h' := h
    simp only [Memory.risesAbove, Bool.and_eq_true, decide_eq_true_eq] at h'
    simp only [Memory.set]
    split
    · next hk =>
      split
      · exact h
      · simp [Memory.risesAbove, ha, hk, h'.2]
    · split
      · next hk =>
        subst hk
        split
        · exact Memory.risesAbove_mono h'.2 (by omega)
        · simp [Memory.risesAbove, ha, h'.2]
      · simp only [Memory.risesAbove, Bool.and_eq_true, decide_eq_true_eq]
        exact ⟨h'.1, ih h'.2 (by omega)⟩

theorem Memory.sorted_set {m : Memory} (h : m.sorted = true) (a : Nat) (v : Byte) : (m.set a v).sorted = true := by
  cases m with
  | nil =>
    simp only [Memory.set]
    split <;> rfl
  | cons c m =>
    obtain ⟨k, w⟩ := c
    rw [Memory.sorted_cons] at h
    simp only [Memory.set]
    split
    · next hk =>
      split
      · exact h
      · simp [Memory.sorted, Memory.risesAbove, hk, h]
    · split
      · next hk =>
        subst hk
        split
        · exact Memory.sorted_of_risesAbove h
        · exact h
      · exact Memory.risesAbove_set h v (by omega)

theorem Memory.all_set {m : Memory} {q : Host.Cell → Bool} (h : m.all q = true) {a : Nat} {v : Byte}
    (hq : v ≠ Memory.blank → q (a, v) = true) : (m.set a v).all q = true := by
  induction m with
  | nil =>
    simp only [Memory.set]
    split
    · rfl
    · next hv => simp [hq hv]
  | cons c m ih =>
    obtain ⟨k, w⟩ := c
    have h' := h
    simp only [List.all_cons, Bool.and_eq_true] at h'
    simp only [Memory.set]
    split
    · split
      · exact h
      · next hv => simp only [List.all_cons, hq hv, h'.1, h'.2, Bool.and_self]
    · split
      · split
        · exact h'.2
        · next hv => simp only [List.all_cons, hq hv, h'.2, Bool.and_self]
      · simp only [List.all_cons, h'.1, ih h'.2, Bool.and_self]

/-- A write keeps memory canonical. -/
theorem Memory.wf_set {m : Memory} (h : m.wf = true) (a : Nat) (v : Byte) : (m.set a v).wf = true := by
  simp only [Memory.wf, Bool.and_eq_true] at h ⊢
  exact ⟨Memory.sorted_set h.1 a v, Memory.all_set h.2 (fun hv => by simpa using hv)⟩

/-- A write inside memory lists no address outside it. -/
theorem Memory.within_set {m : Memory} {n : Nat} (h : m.within n = true) {a : Nat} (v : Byte) (ha : a < n) :
    (m.set a v).within n = true :=
  Memory.all_set h (fun _ => by simpa using ha)

theorem Memory.sorted_of_wf {m : Memory} (h : m.wf = true) : m.sorted = true := by
  simp only [Memory.wf, Bool.and_eq_true] at h
  exact h.1

/-- A read after a write, in one equation, in a canonical memory. -/
theorem Memory.get_set {m : Memory} (h : m.wf = true) (a b : Nat) (v : Byte) :
    (m.set a v).get b = if b = a then v else m.get b := by
  split
  · next hb =>
    subst hb
    exact Memory.get_set_same (Memory.sorted_of_wf h) b v
  · next hb => exact Memory.get_set_ne m v hb

/-- Reset's memory is canonical. -/
theorem reset_mem_wf : State.reset.mem.wf = true := rfl

/-! ### The transactions -/

/-- A byte read succeeds exactly inside memory. -/
theorem memRead_eq_ok {s : State} {a : Nat} {b : Byte} :
    memRead s a = .ok b ↔ a < s.cfg.memSize ∧ s.mem.get a = b := by
  unfold memRead
  split <;> simp_all

/-- A byte read fails exactly outside memory, with the address. -/
theorem memRead_eq_error {s : State} {a : Nat} {f : Fault} :
    memRead s a = .error f ↔ s.cfg.memSize ≤ a ∧ f = .outOfBounds a := by
  unfold memRead
  split
  · constructor
    · intro h
      cases h
    · intro h
      omega
  · next h =>
    constructor
    · intro e
      cases e
      exact ⟨by omega, rfl⟩
    · rintro ⟨-, rfl⟩
      rfl

/-- A read depends on the parameters and memory alone. -/
theorem memRead_congr {s t : State} (hc : t.cfg = s.cfg) (hm : t.mem = s.mem) (a : Nat) : memRead t a = memRead s a := by
  simp [memRead, hc, hm]

theorem memReadWord_congr {s t : State} (hc : t.cfg = s.cfg) (hm : t.mem = s.mem) (a : Nat) :
    memReadWord t a = memReadWord s a := by
  simp [memReadWord, memRead_congr hc hm]

/-- A word read succeeds exactly when both bytes are inside memory. -/
theorem memReadWord_eq_ok {s : State} {a : Nat} {w : Word} :
    memReadWord s a = .ok w ↔ a + 1 < s.cfg.memSize ∧ joinBytes (s.mem.get (a + 1)) (s.mem.get a) = w := by
  unfold memReadWord memRead
  by_cases h : a < s.cfg.memSize
  · by_cases h' : a + 1 < s.cfg.memSize <;> simp [h, h']
  · have : ¬ a + 1 < s.cfg.memSize := by omega
    simp [h, this]

/-- A word read fails with the lower of its addresses that is outside memory. -/
theorem memReadWord_eq_error {s : State} {a : Nat} {f : Fault} :
    memReadWord s a = .error f ↔
      (s.cfg.memSize ≤ a ∧ f = .outOfBounds a) ∨ (s.cfg.memSize = a + 1 ∧ f = .outOfBounds (a + 1)) := by
  unfold memReadWord memRead
  by_cases h : a < s.cfg.memSize
  · by_cases h' : a + 1 < s.cfg.memSize
    · simp only [h, h', if_true, reduceCtorEq, false_iff, not_or, not_and]
      omega
    · simp only [h, h', if_true, if_false, Except.error.injEq]
      constructor
      · rintro rfl
        exact .inr ⟨by omega, rfl⟩
      · rintro (⟨h1, -⟩ | ⟨-, rfl⟩)
        · omega
        · rfl
  · simp only [h, if_false, Except.error.injEq]
    constructor
    · rintro rfl
      exact .inl ⟨by omega, rfl⟩
    · rintro (⟨-, rfl⟩ | ⟨h1, -⟩)
      · rfl
      · omega

/-- A write succeeds exactly inside memory, and then writes one byte of memory and nothing else. -/
theorem memWrite_eq_ok {s t : State} {a : Nat} {v : Byte} :
    memWrite s a v = .ok t ↔ a < s.cfg.memSize ∧ t = { s with mem := s.mem.set a v } := by
  unfold memWrite
  split
  · next h => simp [h, eq_comm]
  · next h => simp [h]

/-- A write fails exactly outside memory, with the address. -/
theorem memWrite_eq_error {s : State} {a : Nat} {v : Byte} {f : Fault} :
    memWrite s a v = .error f ↔ s.cfg.memSize ≤ a ∧ f = .outOfBounds a := by
  unfold memWrite
  split
  · next h =>
    constructor
    · intro e
      cases e
    · intro e
      omega
  · next h =>
    constructor
    · intro e
      cases e
      exact ⟨by omega, rfl⟩
    · rintro ⟨-, rfl⟩
      rfl

end Sys2Proof.Machine
end

