-- ==== Sys2Proof/Laws/Ops.lean ====
section
/-! SUPPORT. Everything each shared operation can do: when it succeeds, with what, and when it fails. -/

namespace Sys2Proof.Machine

/-! ### The stack -/

/-- A push stores one byte at `0x0100 + SP` and decrements SP. -/
theorem push_eq_ok {v : Byte} {s t : State} :
    push v s = .ok t ↔ stackAddr s.sp < s.cfg.memSize ∧
      t = { s with mem := s.mem.set (stackAddr s.sp) v, sp := s.sp + 255#8 } := by
  unfold push memWrite
  split
  · next h => split at h <;> simp_all
  · next h =>
    split at h
    · next hc =>
      cases h
      simp [hc, State.setSp, eq_comm]
    · cases h

theorem push_eq_error {v : Byte} {s : State} {f : Fault} :
    push v s = .error f ↔ s.cfg.memSize ≤ stackAddr s.sp ∧ f = .outOfBounds (stackAddr s.sp) := by
  rw [← memWrite_eq_error (v := v)]
  unfold push
  split <;> simp_all

/-- A pull increments SP and reads `0x0100 + SP`; memory is as it was. -/
theorem pull_eq_ok {s t : State} {b : Byte} :
    pull s = .ok (b, t) ↔ stackAddr (s.sp + 1#8) < s.cfg.memSize ∧
      b = s.mem.get (stackAddr (s.sp + 1#8)) ∧ t = s.setSp (s.sp + 1#8) := by
  simp only [pull, memRead, State.setSp_cfg, State.setSp_sp, State.setSp_mem]
  by_cases h : stackAddr (s.sp + 1#8) < s.cfg.memSize <;> simp [h, eq_comm]

theorem pull_eq_error {s : State} {f : Fault} :
    pull s = .error f ↔ s.cfg.memSize ≤ stackAddr (s.sp + 1#8) ∧ f = .outOfBounds (stackAddr (s.sp + 1#8)) := by
  simp only [pull, memRead, State.setSp_cfg, State.setSp_sp, State.setSp_mem]
  by_cases h : stackAddr (s.sp + 1#8) < s.cfg.memSize
  · simp only [h, if_true, reduceCtorEq, false_iff, not_and]
    omega
  · simp only [h, if_false, Except.error.injEq]
    constructor
    · rintro rfl
      exact ⟨by omega, rfl⟩
    · rintro ⟨-, rfl⟩
      rfl

/-- A push, as a value: the spec lemma its callers rewrite with. -/
theorem push_eq (v : Byte) (s : State) :
    push v s = if stackAddr s.sp < s.cfg.memSize then
        .ok { s with mem := s.mem.set (stackAddr s.sp) v, sp := s.sp + 255#8 }
      else .error (.outOfBounds (stackAddr s.sp)) := by
  split
  · next h => exact push_eq_ok.mpr ⟨h, rfl⟩
  · next h => exact push_eq_error.mpr ⟨by omega, rfl⟩

/-- A pull, as a value. -/
theorem pull_eq (s : State) :
    pull s = if stackAddr (s.sp + 1#8) < s.cfg.memSize then
        .ok (s.mem.get (stackAddr (s.sp + 1#8)), { s with sp := s.sp + 1#8 })
      else .error (.outOfBounds (stackAddr (s.sp + 1#8))) := by
  split
  · next h => exact pull_eq_ok.mpr ⟨h, rfl, rfl⟩
  · next h => exact pull_eq_error.mpr ⟨by omega, rfl⟩

/-- Two pushes, as a value. -/
theorem pushWord_eq (w : Word) (s : State) :
    pushWord w s =
      if stackAddr s.sp < s.cfg.memSize then
        if stackAddr (s.sp + 255#8) < s.cfg.memSize then
          .ok { s with
            mem := (s.mem.set (stackAddr s.sp) (hiByte w)).set (stackAddr (s.sp + 255#8)) (loByte w)
            sp := s.sp + 255#8 + 255#8 }
        else .error (.outOfBounds (stackAddr (s.sp + 255#8)))
      else .error (.outOfBounds (stackAddr s.sp)) := by
  unfold pushWord
  by_cases h : stackAddr s.sp < s.cfg.memSize
  · simp only [push_eq, h, if_true]
  · simp only [push_eq, h, if_false]

/-- Two pulls, as a value. -/
theorem pullWord_eq (s : State) :
    pullWord s =
      if stackAddr (s.sp + 1#8) < s.cfg.memSize then
        if stackAddr (s.sp + 1#8 + 1#8) < s.cfg.memSize then
          .ok (joinBytes (s.mem.get (stackAddr (s.sp + 1#8 + 1#8))) (s.mem.get (stackAddr (s.sp + 1#8))),
            { s with sp := s.sp + 1#8 + 1#8 })
        else .error (.outOfBounds (stackAddr (s.sp + 1#8 + 1#8)))
      else .error (.outOfBounds (stackAddr (s.sp + 1#8))) := by
  unfold pullWord
  by_cases h : stackAddr (s.sp + 1#8) < s.cfg.memSize
  · by_cases h' : stackAddr (s.sp + 1#8 + 1#8) < s.cfg.memSize
    · simp only [pull_eq, h, h', if_true]
    · simp only [pull_eq, h, h', if_true, if_false]
  · simp only [pull_eq, h, if_false]

/-- The stack page: a stack address lies in 0x0100 to 0x01FF. -/
theorem stackAddr_range (sp : Byte) : 0x100 ≤ stackAddr sp ∧ stackAddr sp < 0x200 := by
  have := sp.isLt
  simp only [stackAddr]
  omega

/-- Different stack pointers name different bytes. -/
theorem stackAddr_inj {a b : Byte} : stackAddr a = stackAddr b ↔ a = b := by
  constructor
  · intro h
    apply BitVec.eq_of_toNat_eq
    simp only [stackAddr] at h
    omega
  · rintro rfl
    rfl

/-! ### Outcomes -/

@[simp] theorem finish_ok (t : State) : finish (.ok t) = .next t := rfl
@[simp] theorem finish_error (f : Fault) : finish (.error f) = .fault f := rfl

theorem finish_eq_next {e : Except Fault State} {t : State} : finish e = .next t ↔ e = .ok t := by
  cases e <;> simp [finish]

theorem finish_eq_fault {e : Except Fault State} {f : Fault} : finish e = .fault f ↔ e = .error f := by
  cases e <;> simp [finish]

theorem finish_ne_refused {e : Except Fault State} {r : Refusal} : finish e ≠ .refused r := by
  cases e <;> simp [finish]

/-! ### The resolver -/

/-- The resolver succeeds exactly when the address is formed and lies in memory. -/
theorem resolveMem_eq_ok {s : State} {m : MemOperand} {r : Resolved} :
    resolveMem s m = .ok r ↔
      effectiveAddress s m = .ok r.ea ∧ r.ea < s.cfg.memSize ∧ s.mem.get r.ea = r.value := by
  obtain ⟨ea, v⟩ := r
  unfold resolveMem
  split
  · next h => simp [h]
  · next a h =>
    unfold memRead
    by_cases hc : a < s.cfg.memSize
    · simp only [hc, if_true, Except.ok.injEq, h, Resolved.mk.injEq]
      constructor
      · rintro ⟨rfl, rfl⟩
        exact ⟨rfl, hc, rfl⟩
      · rintro ⟨rfl, -, rfl⟩
        exact ⟨rfl, rfl⟩
    · simp only [hc, if_false, reduceCtorEq, h, Except.ok.injEq, false_iff, not_and]
      rintro rfl h'
      exact absurd h' hc

/-- The address the resolver gives lies in memory. -/
theorem resolveMem_lt {s : State} {m : MemOperand} {r : Resolved} (h : resolveMem s m = .ok r) : r.ea < s.cfg.memSize :=
  (resolveMem_eq_ok.mp h).2.1

theorem operandValue_mem {s : State} {m : MemOperand} {v : Byte} :
    operandValue s (.mem m) = .ok v ↔ ∃ r, resolveMem s m = .ok r ∧ r.value = v := by
  cases h : resolveMem s m <;> simp [operandValue, h, Except.map]

theorem operandValue_mem_error {s : State} {m : MemOperand} {f : Fault} :
    operandValue s (.mem m) = .error f ↔ resolveMem s m = .error f := by
  cases h : resolveMem s m <;> simp [operandValue, h, Except.map]

theorem withValue_ok {o : Operand} {s : State} {v : Byte} (h : operandValue s o = .ok v) (k : Byte → State → Out) :
    withValue o s k = k v (s.advance o) := by
  simp [withValue, h]

theorem withValue_error {o : Operand} {s : State} {f : Fault} (h : operandValue s o = .error f) (k : Byte → State → Out) :
    withValue o s k = .fault f := by
  simp [withValue, h]

theorem withValue_eq_next {o : Operand} {s t : State} {k : Byte → State → Out} :
    withValue o s k = .next t ↔ ∃ v, operandValue s o = .ok v ∧ k v (s.advance o) = .next t := by
  cases h : operandValue s o <;> simp [withValue, h]

theorem withTarget_ok {m : MemOperand} {s : State} {r : Resolved} (h : resolveMem s m = .ok r) (k : Resolved → State → Out) :
    withTarget m s k = k r (s.advance (.mem m)) := by
  simp [withTarget, h]

theorem withTarget_error {m : MemOperand} {s : State} {f : Fault} (h : resolveMem s m = .error f) (k : Resolved → State → Out) :
    withTarget m s k = .fault f := by
  simp [withTarget, h]

theorem withTarget_eq_next {m : MemOperand} {s t : State} {k : Resolved → State → Out} :
    withTarget m s k = .next t ↔ ∃ r, resolveMem s m = .ok r ∧ k r (s.advance (.mem m)) = .next t := by
  cases h : resolveMem s m <;> simp [withTarget, h]

/-- A write back to the address just resolved succeeds. -/
theorem memWrite_resolved {m : MemOperand} {s : State} {r : Resolved} (h : resolveMem s m = .ok r) (v : Byte) :
    memWrite (s.advance (.mem m)) r.ea v =
      .ok { s with mem := s.mem.set r.ea v, pc := pcSeq s (.mem m) } :=
  memWrite_eq_ok.mpr ⟨resolveMem_lt h, rfl⟩

/-! ### The families' shared operations -/

/-- A store, once its operand resolves. -/
theorem storeByte_ok {m : MemOperand} {s : State} {r : Resolved} (h : resolveMem s m = .ok r) (v : Byte) :
    storeByte v m s = .next { s with mem := s.mem.set r.ea v, pc := pcSeq s (.mem m) } := by
  simp [storeByte, withTarget_ok h, memWrite_resolved h]

/-- INC and DEC, once the operand resolves. -/
theorem modifyMem_ok {m : MemOperand} {s : State} {r : Resolved} (h : resolveMem s m = .ok r) (f : Byte → Byte) :
    modifyMem f m s = .next { s with
      mem := s.mem.set r.ea (f r.value), p := setNZ s.p (f r.value), pc := pcSeq s (.mem m) } := by
  simp [modifyMem, withTarget_ok h, memWrite_resolved h, Except.map, State.setNZ, State.setP]

/-- A shift of memory, once the operand resolves. -/
theorem shiftMem_ok {m : MemOperand} {s : State} {r : Resolved} (h : resolveMem s m = .ok r) (f : Byte → Bool → Shifted) :
    shiftMem f m s = .next { s with
      mem := s.mem.set r.ea (f r.value (getFlag s.p .c)).r,
      p := shiftFlags s.p (f r.value (getFlag s.p .c)), pc := pcSeq s (.mem m) } := by
  simp [shiftMem, withTarget_ok h, memWrite_resolved h, Except.map, State.setP]

end Sys2Proof.Machine
end

