-- ==== Sys2Proof/Laws/Exec.lean ====
section
/-! SUPPORT. What `exec` does, operation by operation, whatever the addressing mode: `exec_eq` splits over the constructors of
`Instr` once, so that a claim about an operation needs no split of its own. -/

namespace Sys2Proof.Machine

/-- An operation that takes a memory operand; on the operands no instruction pairs with it the value is of no account. -/
def onMem (k : MemOperand → Out) : Operand → Out
  | .mem m => k m
  | .implied | .accumulator | .immediate _ => .fault .executionError

/-- A branch's offset operand, likewise. -/
def onImmediate (k : Byte → Out) : Operand → Out
  | .immediate d => k d
  | .implied | .accumulator | .mem _ => .fault .executionError

/-- A shift's operand: A or memory, likewise. -/
def onShift (acc : Out) (k : MemOperand → Out) : Operand → Out
  | .accumulator => acc
  | .mem m => k m
  | .implied | .immediate _ => .fault .executionError

/-- The executor by operation (40_sequencer_addressing.md R86). -/
def execOp (o : Operand) (s : State) : Operation → Out
  | .lda => loadA o s
  | .ldx => loadX o s
  | .ldy => loadY o s
  | .sta => onMem (fun m => storeByte s.a m s) o
  | .stx => onMem (fun m => storeByte s.x m s) o
  | .sty => onMem (fun m => storeByte s.y m s) o
  | .tax => execTax s
  | .tay => execTay s
  | .txa => execTxa s
  | .tya => execTya s
  | .adc => addWithCarry o s
  | .sbc => subtractWithBorrow o s
  | .cmp => compareWith s.a o s
  | .cpx => compareWith s.x o s
  | .cpy => compareWith s.y o s
  | .inc => onMem (fun m => modifyMem incByte m s) o
  | .dec => onMem (fun m => modifyMem decByte m s) o
  | .inx => execInx s
  | .iny => execIny s
  | .dex => execDex s
  | .dey => execDey s
  | .and => logicA (· &&& ·) o s
  | .ora => logicA (· ||| ·) o s
  | .eor => logicA (· ^^^ ·) o s
  | .bit => testBits o s
  | .asl => onShift (shiftA shiftAsl s) (fun m => shiftMem shiftAsl m s) o
  | .lsr => onShift (shiftA shiftLsr s) (fun m => shiftMem shiftLsr m s) o
  | .rol => onShift (shiftA shiftRol s) (fun m => shiftMem shiftRol m s) o
  | .ror => onShift (shiftA shiftRor s) (fun m => shiftMem shiftRor m s) o
  | .bpl => onImmediate (fun d => branchIf .n false d s) o
  | .bmi => onImmediate (fun d => branchIf .n true d s) o
  | .bvc => onImmediate (fun d => branchIf .v false d s) o
  | .bvs => onImmediate (fun d => branchIf .v true d s) o
  | .bcc => onImmediate (fun d => branchIf .c false d s) o
  | .bcs => onImmediate (fun d => branchIf .c true d s) o
  | .bne => onImmediate (fun d => branchIf .z false d s) o
  | .beq => onImmediate (fun d => branchIf .z true d s) o
  | .jmp => onMem (fun m => jumpTo m s) o
  | .jsr => onMem (fun m => callSubroutine m s) o
  | .rts => execRts s
  | .brk => execBrk s
  | .rti => execRti s
  | .pha => execPha s
  | .php => execPhp s
  | .pla => execPla s
  | .plp => execPlp s
  | .tsx => execTsx s
  | .txs => execTxs s
  | .clc => execClc s
  | .sec => execSec s
  | .cli => execCli s
  | .sei => execSei s
  | .cld => execCld s
  | .sed => execSed s
  | .clv => execClv s
  | .nop => execNop s

/-- Every meaning is its operation's executor on its operand. -/
theorem exec_eq (i : Instr) (s : State) : exec i s = execOp i.operand s i.operation := by
  cases i <;> rfl

/-- The operand of a store, INC, DEC, JMP or JSR is a memory operand. -/
theorem operand_mem {i : Instr} (h : i.operation ∈ [.sta, .stx, .sty, .inc, .dec, .jmp, .jsr]) :
    ∃ m, i.operand = .mem m := by
  cases i <;> first | exact ⟨_, rfl⟩ | (simp [Instr.operation] at h)

/-- The operand of a shift is A or memory. -/
theorem operand_shift {i : Instr} (h : i.operation ∈ [.asl, .lsr, .rol, .ror]) :
    i.operand = .accumulator ∨ ∃ m, i.operand = .mem m := by
  cases i <;> first | exact .inl rfl | exact .inr ⟨_, rfl⟩ | (simp [Instr.operation] at h)

/-- The operand of a branch is its offset byte. -/
theorem operand_branch {i : Instr} (h : i.operation ∈ [.bpl, .bmi, .bvc, .bvs, .bcc, .bcs, .bne, .beq]) :
    ∃ d, i.operand = .immediate d := by
  cases i <;> first | exact ⟨_, rfl⟩ | (simp [Instr.operation] at h)

/-- The operations with no operand. -/
theorem operand_implied {i : Instr}
    (h : i.operation ∈ [.tax, .tay, .txa, .tya, .inx, .iny, .dex, .dey, .rts, .brk, .rti, .pha, .php, .pla, .plp, .tsx, .txs,
      .clc, .sec, .cli, .sei, .cld, .sed, .clv, .nop]) :
    i.operand = .implied := by
  cases i <;> first | rfl | (simp [Instr.operation] at h)

/-- An instruction that takes A as its operand is a shift. -/
theorem operand_accumulator {i : Instr} (h : i.operand = .accumulator) : i.operation ∈ [.asl, .lsr, .rol, .ror] := by
  cases i <;> first | decide | simp [Instr.operand] at h

end Sys2Proof.Machine
end

