-- ==== Sys2Proof/Laws/Flags.lean ====
section
/-! SUPPORT. What each flag computation does to every flag of P. -/

namespace Sys2Proof.Machine

/-- Writing a flag changes that flag alone. -/
theorem getFlag_putFlag (p : Byte) (f g : Flag) (v : Bool) :
    getFlag (putFlag p f v) g = if g = f then v else getFlag p g := by
  cases f <;> cases g <;> cases v <;> simp [getFlag, putFlag, bitMask, flagBit]

/-- setNZ writes Z and N alone. -/
theorem getFlag_setNZ (p r : Byte) (g : Flag) :
    getFlag (setNZ p r) g = if g = .n then r.getLsbD 7 else if g = .z then r == 0 else getFlag p g := by
  simp only [setNZ, getFlag_putFlag]

/-- The pushed status has B and the unused bit set and the other flags kept. -/
theorem getFlag_pushedStatus (p : Byte) (g : Flag) :
    getFlag (pushedStatus p) g = if g = .b ∨ g = .u then true else getFlag p g := by
  cases g <;> simp [getFlag, pushedStatus, flagBit]

/-- The pulled status has B and the unused bit clear and the other flags kept. -/
theorem getFlag_pulledStatus (p : Byte) (g : Flag) :
    getFlag (pulledStatus p) g = if g = .b ∨ g = .u then false else getFlag p g := by
  cases g <;> simp [getFlag, pulledStatus, flagBit]

/-- Two status bytes with the same eight flags are equal. -/
theorem status_ext {p q : Byte} (h : ∀ f, getFlag p f = getFlag q f) : p = q := by
  apply BitVec.eq_of_getLsbD_eq
  intro i hi
  have hc := h .c
  have hz := h .z
  have hI := h .i
  have hd := h .d
  have hb := h .b
  have hu := h .u
  have hv := h .v
  have hn := h .n
  simp only [getFlag, flagBit] at hc hz hI hd hb hu hv hn
  interval_cases i <;> assumption

end Sys2Proof.Machine
end

