-- ==== Sys2Proof/Laws/PerInstr.lean ====
section
/-! SUPPORT. The family OpcodeCell: at each instruction's opcode the opcode map (30_encoding.md R54) holds that instruction's own pair
of mode and operation, and the pair is one the operation has. One lemma for each constructor of `Instr`. -/

namespace Sys2Proof.Laws.OpcodeCell

/-- The grid's cell at the instruction's opcode is the instruction's (OperandMode, Operation), a legal pair. -/
def Statement (i : Instr) : Prop := decodeOpcode i.opcode = some (i.mode, i.operation) ∧ i.wf = true

/-- The statement from the opcode, mode and operation that a constructor has whatever its operand. -/
theorem of_cell {i : Instr} {op : Byte} {m : Mode} {o : Operation} (hop : i.opcode = op) (hm : i.mode = m)
    (ho : i.operation = o) (hc : decodeOpcode op = some (m, o)) (hl : legalPair o m = true) : Statement i := by
  subst hop hm ho
  exact ⟨hc, hl⟩

theorem ldaIndirectX (z : Byte) : Statement (.ldaIndirectX z) :=
  of_cell (op := 0xA1#8) (m := .indirectX) (o := .lda) rfl rfl rfl (by decide) (by decide)

theorem ldaZeroPage (z : Byte) : Statement (.ldaZeroPage z) :=
  of_cell (op := 0xA5#8) (m := .zeroPage) (o := .lda) rfl rfl rfl (by decide) (by decide)

theorem ldaImmediate (v : Byte) : Statement (.ldaImmediate v) :=
  of_cell (op := 0xA9#8) (m := .immediate) (o := .lda) rfl rfl rfl (by decide) (by decide)

theorem ldaAbsolute (a : Word) : Statement (.ldaAbsolute a) :=
  of_cell (op := 0xAD#8) (m := .absolute) (o := .lda) rfl rfl rfl (by decide) (by decide)

theorem ldaIndirectY (z : Byte) : Statement (.ldaIndirectY z) :=
  of_cell (op := 0xB1#8) (m := .indirectY) (o := .lda) rfl rfl rfl (by decide) (by decide)

theorem ldaZeroPageX (z : Byte) : Statement (.ldaZeroPageX z) :=
  of_cell (op := 0xB5#8) (m := .zeroPageX) (o := .lda) rfl rfl rfl (by decide) (by decide)

theorem ldaAbsoluteY (a : Word) : Statement (.ldaAbsoluteY a) :=
  of_cell (op := 0xB9#8) (m := .absoluteY) (o := .lda) rfl rfl rfl (by decide) (by decide)

theorem ldaAbsoluteX (a : Word) : Statement (.ldaAbsoluteX a) :=
  of_cell (op := 0xBD#8) (m := .absoluteX) (o := .lda) rfl rfl rfl (by decide) (by decide)

theorem ldxImmediate (v : Byte) : Statement (.ldxImmediate v) :=
  of_cell (op := 0xA2#8) (m := .immediate) (o := .ldx) rfl rfl rfl (by decide) (by decide)

theorem ldxZeroPage (z : Byte) : Statement (.ldxZeroPage z) :=
  of_cell (op := 0xA6#8) (m := .zeroPage) (o := .ldx) rfl rfl rfl (by decide) (by decide)

theorem ldxAbsolute (a : Word) : Statement (.ldxAbsolute a) :=
  of_cell (op := 0xAE#8) (m := .absolute) (o := .ldx) rfl rfl rfl (by decide) (by decide)

theorem ldxZeroPageY (z : Byte) : Statement (.ldxZeroPageY z) :=
  of_cell (op := 0xB6#8) (m := .zeroPageY) (o := .ldx) rfl rfl rfl (by decide) (by decide)

theorem ldxAbsoluteY (a : Word) : Statement (.ldxAbsoluteY a) :=
  of_cell (op := 0xBE#8) (m := .absoluteY) (o := .ldx) rfl rfl rfl (by decide) (by decide)

theorem ldyImmediate (v : Byte) : Statement (.ldyImmediate v) :=
  of_cell (op := 0xA0#8) (m := .immediate) (o := .ldy) rfl rfl rfl (by decide) (by decide)

theorem ldyZeroPage (z : Byte) : Statement (.ldyZeroPage z) :=
  of_cell (op := 0xA4#8) (m := .zeroPage) (o := .ldy) rfl rfl rfl (by decide) (by decide)

theorem ldyAbsolute (a : Word) : Statement (.ldyAbsolute a) :=
  of_cell (op := 0xAC#8) (m := .absolute) (o := .ldy) rfl rfl rfl (by decide) (by decide)

theorem ldyZeroPageX (z : Byte) : Statement (.ldyZeroPageX z) :=
  of_cell (op := 0xB4#8) (m := .zeroPageX) (o := .ldy) rfl rfl rfl (by decide) (by decide)

theorem ldyAbsoluteX (a : Word) : Statement (.ldyAbsoluteX a) :=
  of_cell (op := 0xBC#8) (m := .absoluteX) (o := .ldy) rfl rfl rfl (by decide) (by decide)

theorem staIndirectX (z : Byte) : Statement (.staIndirectX z) :=
  of_cell (op := 0x81#8) (m := .indirectX) (o := .sta) rfl rfl rfl (by decide) (by decide)

theorem staZeroPage (z : Byte) : Statement (.staZeroPage z) :=
  of_cell (op := 0x85#8) (m := .zeroPage) (o := .sta) rfl rfl rfl (by decide) (by decide)

theorem staAbsolute (a : Word) : Statement (.staAbsolute a) :=
  of_cell (op := 0x8D#8) (m := .absolute) (o := .sta) rfl rfl rfl (by decide) (by decide)

theorem staIndirectY (z : Byte) : Statement (.staIndirectY z) :=
  of_cell (op := 0x91#8) (m := .indirectY) (o := .sta) rfl rfl rfl (by decide) (by decide)

theorem staZeroPageX (z : Byte) : Statement (.staZeroPageX z) :=
  of_cell (op := 0x95#8) (m := .zeroPageX) (o := .sta) rfl rfl rfl (by decide) (by decide)

theorem staAbsoluteY (a : Word) : Statement (.staAbsoluteY a) :=
  of_cell (op := 0x99#8) (m := .absoluteY) (o := .sta) rfl rfl rfl (by decide) (by decide)

theorem staAbsoluteX (a : Word) : Statement (.staAbsoluteX a) :=
  of_cell (op := 0x9D#8) (m := .absoluteX) (o := .sta) rfl rfl rfl (by decide) (by decide)

theorem stxZeroPage (z : Byte) : Statement (.stxZeroPage z) :=
  of_cell (op := 0x86#8) (m := .zeroPage) (o := .stx) rfl rfl rfl (by decide) (by decide)

theorem stxAbsolute (a : Word) : Statement (.stxAbsolute a) :=
  of_cell (op := 0x8E#8) (m := .absolute) (o := .stx) rfl rfl rfl (by decide) (by decide)

theorem stxZeroPageY (z : Byte) : Statement (.stxZeroPageY z) :=
  of_cell (op := 0x96#8) (m := .zeroPageY) (o := .stx) rfl rfl rfl (by decide) (by decide)

theorem styZeroPage (z : Byte) : Statement (.styZeroPage z) :=
  of_cell (op := 0x84#8) (m := .zeroPage) (o := .sty) rfl rfl rfl (by decide) (by decide)

theorem styAbsolute (a : Word) : Statement (.styAbsolute a) :=
  of_cell (op := 0x8C#8) (m := .absolute) (o := .sty) rfl rfl rfl (by decide) (by decide)

theorem styZeroPageX (z : Byte) : Statement (.styZeroPageX z) :=
  of_cell (op := 0x94#8) (m := .zeroPageX) (o := .sty) rfl rfl rfl (by decide) (by decide)

theorem tax : Statement .tax :=
  of_cell (op := 0xAA#8) (m := .implied) (o := .tax) rfl rfl rfl (by decide) (by decide)

theorem tay : Statement .tay :=
  of_cell (op := 0xA8#8) (m := .implied) (o := .tay) rfl rfl rfl (by decide) (by decide)

theorem txa : Statement .txa :=
  of_cell (op := 0x8A#8) (m := .implied) (o := .txa) rfl rfl rfl (by decide) (by decide)

theorem tya : Statement .tya :=
  of_cell (op := 0x98#8) (m := .implied) (o := .tya) rfl rfl rfl (by decide) (by decide)

theorem adcIndirectX (z : Byte) : Statement (.adcIndirectX z) :=
  of_cell (op := 0x61#8) (m := .indirectX) (o := .adc) rfl rfl rfl (by decide) (by decide)

theorem adcZeroPage (z : Byte) : Statement (.adcZeroPage z) :=
  of_cell (op := 0x65#8) (m := .zeroPage) (o := .adc) rfl rfl rfl (by decide) (by decide)

theorem adcImmediate (v : Byte) : Statement (.adcImmediate v) :=
  of_cell (op := 0x69#8) (m := .immediate) (o := .adc) rfl rfl rfl (by decide) (by decide)

theorem adcAbsolute (a : Word) : Statement (.adcAbsolute a) :=
  of_cell (op := 0x6D#8) (m := .absolute) (o := .adc) rfl rfl rfl (by decide) (by decide)

theorem adcIndirectY (z : Byte) : Statement (.adcIndirectY z) :=
  of_cell (op := 0x71#8) (m := .indirectY) (o := .adc) rfl rfl rfl (by decide) (by decide)

theorem adcZeroPageX (z : Byte) : Statement (.adcZeroPageX z) :=
  of_cell (op := 0x75#8) (m := .zeroPageX) (o := .adc) rfl rfl rfl (by decide) (by decide)

theorem adcAbsoluteY (a : Word) : Statement (.adcAbsoluteY a) :=
  of_cell (op := 0x79#8) (m := .absoluteY) (o := .adc) rfl rfl rfl (by decide) (by decide)

theorem adcAbsoluteX (a : Word) : Statement (.adcAbsoluteX a) :=
  of_cell (op := 0x7D#8) (m := .absoluteX) (o := .adc) rfl rfl rfl (by decide) (by decide)

theorem sbcIndirectX (z : Byte) : Statement (.sbcIndirectX z) :=
  of_cell (op := 0xE1#8) (m := .indirectX) (o := .sbc) rfl rfl rfl (by decide) (by decide)

theorem sbcZeroPage (z : Byte) : Statement (.sbcZeroPage z) :=
  of_cell (op := 0xE5#8) (m := .zeroPage) (o := .sbc) rfl rfl rfl (by decide) (by decide)

theorem sbcImmediate (v : Byte) : Statement (.sbcImmediate v) :=
  of_cell (op := 0xE9#8) (m := .immediate) (o := .sbc) rfl rfl rfl (by decide) (by decide)

theorem sbcAbsolute (a : Word) : Statement (.sbcAbsolute a) :=
  of_cell (op := 0xED#8) (m := .absolute) (o := .sbc) rfl rfl rfl (by decide) (by decide)

theorem sbcIndirectY (z : Byte) : Statement (.sbcIndirectY z) :=
  of_cell (op := 0xF1#8) (m := .indirectY) (o := .sbc) rfl rfl rfl (by decide) (by decide)

theorem sbcZeroPageX (z : Byte) : Statement (.sbcZeroPageX z) :=
  of_cell (op := 0xF5#8) (m := .zeroPageX) (o := .sbc) rfl rfl rfl (by decide) (by decide)

theorem sbcAbsoluteY (a : Word) : Statement (.sbcAbsoluteY a) :=
  of_cell (op := 0xF9#8) (m := .absoluteY) (o := .sbc) rfl rfl rfl (by decide) (by decide)

theorem sbcAbsoluteX (a : Word) : Statement (.sbcAbsoluteX a) :=
  of_cell (op := 0xFD#8) (m := .absoluteX) (o := .sbc) rfl rfl rfl (by decide) (by decide)

theorem cmpIndirectX (z : Byte) : Statement (.cmpIndirectX z) :=
  of_cell (op := 0xC1#8) (m := .indirectX) (o := .cmp) rfl rfl rfl (by decide) (by decide)

theorem cmpZeroPage (z : Byte) : Statement (.cmpZeroPage z) :=
  of_cell (op := 0xC5#8) (m := .zeroPage) (o := .cmp) rfl rfl rfl (by decide) (by decide)

theorem cmpImmediate (v : Byte) : Statement (.cmpImmediate v) :=
  of_cell (op := 0xC9#8) (m := .immediate) (o := .cmp) rfl rfl rfl (by decide) (by decide)

theorem cmpAbsolute (a : Word) : Statement (.cmpAbsolute a) :=
  of_cell (op := 0xCD#8) (m := .absolute) (o := .cmp) rfl rfl rfl (by decide) (by decide)

theorem cmpIndirectY (z : Byte) : Statement (.cmpIndirectY z) :=
  of_cell (op := 0xD1#8) (m := .indirectY) (o := .cmp) rfl rfl rfl (by decide) (by decide)

theorem cmpZeroPageX (z : Byte) : Statement (.cmpZeroPageX z) :=
  of_cell (op := 0xD5#8) (m := .zeroPageX) (o := .cmp) rfl rfl rfl (by decide) (by decide)

theorem cmpAbsoluteY (a : Word) : Statement (.cmpAbsoluteY a) :=
  of_cell (op := 0xD9#8) (m := .absoluteY) (o := .cmp) rfl rfl rfl (by decide) (by decide)

theorem cmpAbsoluteX (a : Word) : Statement (.cmpAbsoluteX a) :=
  of_cell (op := 0xDD#8) (m := .absoluteX) (o := .cmp) rfl rfl rfl (by decide) (by decide)

theorem cpxImmediate (v : Byte) : Statement (.cpxImmediate v) :=
  of_cell (op := 0xE0#8) (m := .immediate) (o := .cpx) rfl rfl rfl (by decide) (by decide)

theorem cpxZeroPage (z : Byte) : Statement (.cpxZeroPage z) :=
  of_cell (op := 0xE4#8) (m := .zeroPage) (o := .cpx) rfl rfl rfl (by decide) (by decide)

theorem cpxAbsolute (a : Word) : Statement (.cpxAbsolute a) :=
  of_cell (op := 0xEC#8) (m := .absolute) (o := .cpx) rfl rfl rfl (by decide) (by decide)

theorem cpyImmediate (v : Byte) : Statement (.cpyImmediate v) :=
  of_cell (op := 0xC0#8) (m := .immediate) (o := .cpy) rfl rfl rfl (by decide) (by decide)

theorem cpyZeroPage (z : Byte) : Statement (.cpyZeroPage z) :=
  of_cell (op := 0xC4#8) (m := .zeroPage) (o := .cpy) rfl rfl rfl (by decide) (by decide)

theorem cpyAbsolute (a : Word) : Statement (.cpyAbsolute a) :=
  of_cell (op := 0xCC#8) (m := .absolute) (o := .cpy) rfl rfl rfl (by decide) (by decide)

theorem incZeroPage (z : Byte) : Statement (.incZeroPage z) :=
  of_cell (op := 0xE6#8) (m := .zeroPage) (o := .inc) rfl rfl rfl (by decide) (by decide)

theorem incAbsolute (a : Word) : Statement (.incAbsolute a) :=
  of_cell (op := 0xEE#8) (m := .absolute) (o := .inc) rfl rfl rfl (by decide) (by decide)

theorem incZeroPageX (z : Byte) : Statement (.incZeroPageX z) :=
  of_cell (op := 0xF6#8) (m := .zeroPageX) (o := .inc) rfl rfl rfl (by decide) (by decide)

theorem incAbsoluteX (a : Word) : Statement (.incAbsoluteX a) :=
  of_cell (op := 0xFE#8) (m := .absoluteX) (o := .inc) rfl rfl rfl (by decide) (by decide)

theorem decZeroPage (z : Byte) : Statement (.decZeroPage z) :=
  of_cell (op := 0xC6#8) (m := .zeroPage) (o := .dec) rfl rfl rfl (by decide) (by decide)

theorem decAbsolute (a : Word) : Statement (.decAbsolute a) :=
  of_cell (op := 0xCE#8) (m := .absolute) (o := .dec) rfl rfl rfl (by decide) (by decide)

theorem decZeroPageX (z : Byte) : Statement (.decZeroPageX z) :=
  of_cell (op := 0xD6#8) (m := .zeroPageX) (o := .dec) rfl rfl rfl (by decide) (by decide)

theorem decAbsoluteX (a : Word) : Statement (.decAbsoluteX a) :=
  of_cell (op := 0xDE#8) (m := .absoluteX) (o := .dec) rfl rfl rfl (by decide) (by decide)

theorem inx : Statement .inx :=
  of_cell (op := 0xE8#8) (m := .implied) (o := .inx) rfl rfl rfl (by decide) (by decide)

theorem iny : Statement .iny :=
  of_cell (op := 0xC8#8) (m := .implied) (o := .iny) rfl rfl rfl (by decide) (by decide)

theorem dex : Statement .dex :=
  of_cell (op := 0xCA#8) (m := .implied) (o := .dex) rfl rfl rfl (by decide) (by decide)

theorem dey : Statement .dey :=
  of_cell (op := 0x88#8) (m := .implied) (o := .dey) rfl rfl rfl (by decide) (by decide)

theorem andIndirectX (z : Byte) : Statement (.andIndirectX z) :=
  of_cell (op := 0x21#8) (m := .indirectX) (o := .and) rfl rfl rfl (by decide) (by decide)

theorem andZeroPage (z : Byte) : Statement (.andZeroPage z) :=
  of_cell (op := 0x25#8) (m := .zeroPage) (o := .and) rfl rfl rfl (by decide) (by decide)

theorem andImmediate (v : Byte) : Statement (.andImmediate v) :=
  of_cell (op := 0x29#8) (m := .immediate) (o := .and) rfl rfl rfl (by decide) (by decide)

theorem andAbsolute (a : Word) : Statement (.andAbsolute a) :=
  of_cell (op := 0x2D#8) (m := .absolute) (o := .and) rfl rfl rfl (by decide) (by decide)

theorem andIndirectY (z : Byte) : Statement (.andIndirectY z) :=
  of_cell (op := 0x31#8) (m := .indirectY) (o := .and) rfl rfl rfl (by decide) (by decide)

theorem andZeroPageX (z : Byte) : Statement (.andZeroPageX z) :=
  of_cell (op := 0x35#8) (m := .zeroPageX) (o := .and) rfl rfl rfl (by decide) (by decide)

theorem andAbsoluteY (a : Word) : Statement (.andAbsoluteY a) :=
  of_cell (op := 0x39#8) (m := .absoluteY) (o := .and) rfl rfl rfl (by decide) (by decide)

theorem andAbsoluteX (a : Word) : Statement (.andAbsoluteX a) :=
  of_cell (op := 0x3D#8) (m := .absoluteX) (o := .and) rfl rfl rfl (by decide) (by decide)

theorem oraIndirectX (z : Byte) : Statement (.oraIndirectX z) :=
  of_cell (op := 0x01#8) (m := .indirectX) (o := .ora) rfl rfl rfl (by decide) (by decide)

theorem oraZeroPage (z : Byte) : Statement (.oraZeroPage z) :=
  of_cell (op := 0x05#8) (m := .zeroPage) (o := .ora) rfl rfl rfl (by decide) (by decide)

theorem oraImmediate (v : Byte) : Statement (.oraImmediate v) :=
  of_cell (op := 0x09#8) (m := .immediate) (o := .ora) rfl rfl rfl (by decide) (by decide)

theorem oraAbsolute (a : Word) : Statement (.oraAbsolute a) :=
  of_cell (op := 0x0D#8) (m := .absolute) (o := .ora) rfl rfl rfl (by decide) (by decide)

theorem oraIndirectY (z : Byte) : Statement (.oraIndirectY z) :=
  of_cell (op := 0x11#8) (m := .indirectY) (o := .ora) rfl rfl rfl (by decide) (by decide)

theorem oraZeroPageX (z : Byte) : Statement (.oraZeroPageX z) :=
  of_cell (op := 0x15#8) (m := .zeroPageX) (o := .ora) rfl rfl rfl (by decide) (by decide)

theorem oraAbsoluteY (a : Word) : Statement (.oraAbsoluteY a) :=
  of_cell (op := 0x19#8) (m := .absoluteY) (o := .ora) rfl rfl rfl (by decide) (by decide)

theorem oraAbsoluteX (a : Word) : Statement (.oraAbsoluteX a) :=
  of_cell (op := 0x1D#8) (m := .absoluteX) (o := .ora) rfl rfl rfl (by decide) (by decide)

theorem eorIndirectX (z : Byte) : Statement (.eorIndirectX z) :=
  of_cell (op := 0x41#8) (m := .indirectX) (o := .eor) rfl rfl rfl (by decide) (by decide)

theorem eorZeroPage (z : Byte) : Statement (.eorZeroPage z) :=
  of_cell (op := 0x45#8) (m := .zeroPage) (o := .eor) rfl rfl rfl (by decide) (by decide)

theorem eorImmediate (v : Byte) : Statement (.eorImmediate v) :=
  of_cell (op := 0x49#8) (m := .immediate) (o := .eor) rfl rfl rfl (by decide) (by decide)

theorem eorAbsolute (a : Word) : Statement (.eorAbsolute a) :=
  of_cell (op := 0x4D#8) (m := .absolute) (o := .eor) rfl rfl rfl (by decide) (by decide)

theorem eorIndirectY (z : Byte) : Statement (.eorIndirectY z) :=
  of_cell (op := 0x51#8) (m := .indirectY) (o := .eor) rfl rfl rfl (by decide) (by decide)

theorem eorZeroPageX (z : Byte) : Statement (.eorZeroPageX z) :=
  of_cell (op := 0x55#8) (m := .zeroPageX) (o := .eor) rfl rfl rfl (by decide) (by decide)

theorem eorAbsoluteY (a : Word) : Statement (.eorAbsoluteY a) :=
  of_cell (op := 0x59#8) (m := .absoluteY) (o := .eor) rfl rfl rfl (by decide) (by decide)

theorem eorAbsoluteX (a : Word) : Statement (.eorAbsoluteX a) :=
  of_cell (op := 0x5D#8) (m := .absoluteX) (o := .eor) rfl rfl rfl (by decide) (by decide)

theorem bitZeroPage (z : Byte) : Statement (.bitZeroPage z) :=
  of_cell (op := 0x24#8) (m := .zeroPage) (o := .bit) rfl rfl rfl (by decide) (by decide)

theorem bitAbsolute (a : Word) : Statement (.bitAbsolute a) :=
  of_cell (op := 0x2C#8) (m := .absolute) (o := .bit) rfl rfl rfl (by decide) (by decide)

theorem aslZeroPage (z : Byte) : Statement (.aslZeroPage z) :=
  of_cell (op := 0x06#8) (m := .zeroPage) (o := .asl) rfl rfl rfl (by decide) (by decide)

theorem aslAccumulator : Statement .aslAccumulator :=
  of_cell (op := 0x0A#8) (m := .accumulator) (o := .asl) rfl rfl rfl (by decide) (by decide)

theorem aslAbsolute (a : Word) : Statement (.aslAbsolute a) :=
  of_cell (op := 0x0E#8) (m := .absolute) (o := .asl) rfl rfl rfl (by decide) (by decide)

theorem aslZeroPageX (z : Byte) : Statement (.aslZeroPageX z) :=
  of_cell (op := 0x16#8) (m := .zeroPageX) (o := .asl) rfl rfl rfl (by decide) (by decide)

theorem aslAbsoluteX (a : Word) : Statement (.aslAbsoluteX a) :=
  of_cell (op := 0x1E#8) (m := .absoluteX) (o := .asl) rfl rfl rfl (by decide) (by decide)

theorem lsrZeroPage (z : Byte) : Statement (.lsrZeroPage z) :=
  of_cell (op := 0x46#8) (m := .zeroPage) (o := .lsr) rfl rfl rfl (by decide) (by decide)

theorem lsrAccumulator : Statement .lsrAccumulator :=
  of_cell (op := 0x4A#8) (m := .accumulator) (o := .lsr) rfl rfl rfl (by decide) (by decide)

theorem lsrAbsolute (a : Word) : Statement (.lsrAbsolute a) :=
  of_cell (op := 0x4E#8) (m := .absolute) (o := .lsr) rfl rfl rfl (by decide) (by decide)

theorem lsrZeroPageX (z : Byte) : Statement (.lsrZeroPageX z) :=
  of_cell (op := 0x56#8) (m := .zeroPageX) (o := .lsr) rfl rfl rfl (by decide) (by decide)

theorem lsrAbsoluteX (a : Word) : Statement (.lsrAbsoluteX a) :=
  of_cell (op := 0x5E#8) (m := .absoluteX) (o := .lsr) rfl rfl rfl (by decide) (by decide)

theorem rolZeroPage (z : Byte) : Statement (.rolZeroPage z) :=
  of_cell (op := 0x26#8) (m := .zeroPage) (o := .rol) rfl rfl rfl (by decide) (by decide)

theorem rolAccumulator : Statement .rolAccumulator :=
  of_cell (op := 0x2A#8) (m := .accumulator) (o := .rol) rfl rfl rfl (by decide) (by decide)

theorem rolAbsolute (a : Word) : Statement (.rolAbsolute a) :=
  of_cell (op := 0x2E#8) (m := .absolute) (o := .rol) rfl rfl rfl (by decide) (by decide)

theorem rolZeroPageX (z : Byte) : Statement (.rolZeroPageX z) :=
  of_cell (op := 0x36#8) (m := .zeroPageX) (o := .rol) rfl rfl rfl (by decide) (by decide)

theorem rolAbsoluteX (a : Word) : Statement (.rolAbsoluteX a) :=
  of_cell (op := 0x3E#8) (m := .absoluteX) (o := .rol) rfl rfl rfl (by decide) (by decide)

theorem rorZeroPage (z : Byte) : Statement (.rorZeroPage z) :=
  of_cell (op := 0x66#8) (m := .zeroPage) (o := .ror) rfl rfl rfl (by decide) (by decide)

theorem rorAccumulator : Statement .rorAccumulator :=
  of_cell (op := 0x6A#8) (m := .accumulator) (o := .ror) rfl rfl rfl (by decide) (by decide)

theorem rorAbsolute (a : Word) : Statement (.rorAbsolute a) :=
  of_cell (op := 0x6E#8) (m := .absolute) (o := .ror) rfl rfl rfl (by decide) (by decide)

theorem rorZeroPageX (z : Byte) : Statement (.rorZeroPageX z) :=
  of_cell (op := 0x76#8) (m := .zeroPageX) (o := .ror) rfl rfl rfl (by decide) (by decide)

theorem rorAbsoluteX (a : Word) : Statement (.rorAbsoluteX a) :=
  of_cell (op := 0x7E#8) (m := .absoluteX) (o := .ror) rfl rfl rfl (by decide) (by decide)

theorem bpl (d : Byte) : Statement (.bpl d) :=
  of_cell (op := 0x10#8) (m := .immediate) (o := .bpl) rfl rfl rfl (by decide) (by decide)

theorem bmi (d : Byte) : Statement (.bmi d) :=
  of_cell (op := 0x30#8) (m := .immediate) (o := .bmi) rfl rfl rfl (by decide) (by decide)

theorem bvc (d : Byte) : Statement (.bvc d) :=
  of_cell (op := 0x50#8) (m := .immediate) (o := .bvc) rfl rfl rfl (by decide) (by decide)

theorem bvs (d : Byte) : Statement (.bvs d) :=
  of_cell (op := 0x70#8) (m := .immediate) (o := .bvs) rfl rfl rfl (by decide) (by decide)

theorem bcc (d : Byte) : Statement (.bcc d) :=
  of_cell (op := 0x90#8) (m := .immediate) (o := .bcc) rfl rfl rfl (by decide) (by decide)

theorem bcs (d : Byte) : Statement (.bcs d) :=
  of_cell (op := 0xB0#8) (m := .immediate) (o := .bcs) rfl rfl rfl (by decide) (by decide)

theorem bne (d : Byte) : Statement (.bne d) :=
  of_cell (op := 0xD0#8) (m := .immediate) (o := .bne) rfl rfl rfl (by decide) (by decide)

theorem beq (d : Byte) : Statement (.beq d) :=
  of_cell (op := 0xF0#8) (m := .immediate) (o := .beq) rfl rfl rfl (by decide) (by decide)

theorem jmpAbsolute (a : Word) : Statement (.jmpAbsolute a) :=
  of_cell (op := 0x4C#8) (m := .absolute) (o := .jmp) rfl rfl rfl (by decide) (by decide)

theorem jmpIndirect (p : Word) : Statement (.jmpIndirect p) :=
  of_cell (op := 0x6C#8) (m := .indirect) (o := .jmp) rfl rfl rfl (by decide) (by decide)

theorem jsr (a : Word) : Statement (.jsr a) :=
  of_cell (op := 0x20#8) (m := .absolute) (o := .jsr) rfl rfl rfl (by decide) (by decide)

theorem rts : Statement .rts :=
  of_cell (op := 0x60#8) (m := .implied) (o := .rts) rfl rfl rfl (by decide) (by decide)

theorem brk : Statement .brk :=
  of_cell (op := 0x00#8) (m := .implied) (o := .brk) rfl rfl rfl (by decide) (by decide)

theorem rti : Statement .rti :=
  of_cell (op := 0x40#8) (m := .implied) (o := .rti) rfl rfl rfl (by decide) (by decide)

theorem pha : Statement .pha :=
  of_cell (op := 0x48#8) (m := .implied) (o := .pha) rfl rfl rfl (by decide) (by decide)

theorem php : Statement .php :=
  of_cell (op := 0x08#8) (m := .implied) (o := .php) rfl rfl rfl (by decide) (by decide)

theorem pla : Statement .pla :=
  of_cell (op := 0x68#8) (m := .implied) (o := .pla) rfl rfl rfl (by decide) (by decide)

theorem plp : Statement .plp :=
  of_cell (op := 0x28#8) (m := .implied) (o := .plp) rfl rfl rfl (by decide) (by decide)

theorem tsx : Statement .tsx :=
  of_cell (op := 0xBA#8) (m := .implied) (o := .tsx) rfl rfl rfl (by decide) (by decide)

theorem txs : Statement .txs :=
  of_cell (op := 0x9A#8) (m := .implied) (o := .txs) rfl rfl rfl (by decide) (by decide)

theorem clc : Statement .clc :=
  of_cell (op := 0x18#8) (m := .implied) (o := .clc) rfl rfl rfl (by decide) (by decide)

theorem sec : Statement .sec :=
  of_cell (op := 0x38#8) (m := .implied) (o := .sec) rfl rfl rfl (by decide) (by decide)

theorem cli : Statement .cli :=
  of_cell (op := 0x58#8) (m := .implied) (o := .cli) rfl rfl rfl (by decide) (by decide)

theorem sei : Statement .sei :=
  of_cell (op := 0x78#8) (m := .implied) (o := .sei) rfl rfl rfl (by decide) (by decide)

theorem cld : Statement .cld :=
  of_cell (op := 0xD8#8) (m := .implied) (o := .cld) rfl rfl rfl (by decide) (by decide)

theorem sed : Statement .sed :=
  of_cell (op := 0xF8#8) (m := .implied) (o := .sed) rfl rfl rfl (by decide) (by decide)

theorem clv : Statement .clv :=
  of_cell (op := 0xB8#8) (m := .implied) (o := .clv) rfl rfl rfl (by decide) (by decide)

theorem nop : Statement .nop :=
  of_cell (op := 0xEA#8) (m := .implied) (o := .nop) rfl rfl rfl (by decide) (by decide)

end Sys2Proof.Laws.OpcodeCell
end

