-- ==== Sys2Proof/Tests/Slice0.lean ====
section
/-! SUPPORT. Tests of one step on small states, with results taken from the vectors of 95_test_vectors.md; decoding tests, with words
written out from 30_encoding.md; and, for every obligation with hypotheses, states that meet them. A vector's name is in its test's
name: test_V_AM_07 is V-AM-07. -/

namespace Sys2Proof.Tests

open Sys2Proof Sys2Proof.Machine

/-! ### Small states and what a step answers -/

/-- Bytes written from an address up. -/
def putBytes : Memory → Nat → List Byte → Memory
  | m, _, [] => m
  | m, a, b :: bs => putBytes (m.set a b) (a + 1) bs

/-- Memory with the listed runs of bytes written. -/
def putAll : Memory → List (Nat × List Byte) → Memory
  | m, [] => m
  | m, (a, bs) :: l => putAll (putBytes m a bs) l

/-- Memory that holds the listed runs of bytes and nothing else. -/
def bytes (l : List (Nat × List Byte)) : Memory := putAll [] l

/-- Every register zero, memory blank, the default launch. -/
def zero : State := State.reset

/-- A launch with another MEM_SIZE. -/
def small (n : Nat) : Config := { Config.default with memSize := n }

/-- The launches that differ from the default in one other parameter. -/
def wide : Config := { Config.default with immWidth := .two }
def byX : Config := { Config.default with indyIndex := .x }
def noDecimal : Config := { Config.default with decimalMode := .refuse }

/-- The next state of an outcome. -/
def nextOf : Out → Option State
  | .next t => some t
  | .fault _ => none
  | .refused _ => none

/-- Whether an outcome is the next state that the changes give. -/
def goesTo (o : Out) (t : State) : Bool := decide (nextOf o = some t)

/-- Whether the step from a state answers that state with the changes made. -/
def stepsTo (s : State) (change : State → State) : Bool := goesTo (step s) (change s)

/-- Whether an outcome is a fault. -/
def faultsWith : Out → Fault → Bool
  | .fault f, g => decide (f = g)
  | .next _, _ => false
  | .refused _, _ => false

/-- Whether an outcome is the decimal refusal. -/
def refusesDecimal : Out → Bool
  | .refused r => decide (r = .decimalArithmetic)
  | .next _ => false
  | .fault _ => false

/-! ### Well-formedness refuses what it should -/

/-- 00_scope.md R1: MEM_SIZE is at least 1. -/
theorem test_config_empty_memory_refused : (small 0).wf = false := by decide

/-- R1: MEM_SIZE is at most 65536. -/
theorem test_config_memory_above_64k_refused : (small 65537).wf = false := by decide

theorem test_config_bounds_accepted : (small 1).wf = true ∧ (small 65536).wf = true := by decide

/-- 30_encoding.md R54's table by mnemonic has no such pair. -/
theorem test_pairs_outside_table_refused :
    legalPair .sta .immediate = false ∧ legalPair .bit .immediate = false ∧ legalPair .ldx .absoluteX = false ∧
    legalPair .ldx .zeroPageX = false ∧ legalPair .ldy .absoluteY = false ∧ legalPair .stx .absoluteY = false ∧
    legalPair .inc .accumulator = false ∧ legalPair .jsr .indirect = false ∧ legalPair .bne .absolute = false ∧
    legalPair .nop .immediate = false ∧ legalPair .cpx .zeroPageX = false ∧ legalPair .asl .indirectY = false := by decide

/-- Memory out of order, with an address twice, or with a blank byte listed is not canonical. -/
theorem test_memory_ill_formed_refused :
    Memory.wf [(2, 1), (1, 1)] = false ∧ Memory.wf [(1, 1), (1, 2)] = false ∧ Memory.wf [(1, 0)] = false ∧
    Memory.wf [(1, 1), (2, 3), (2, 4)] = false := by decide

/-- A cell at MEM_SIZE is outside memory. -/
theorem test_memory_outside_refused : Memory.within [(0x10, 1)] 0x10 = false ∧ Memory.within [(0x0F, 1)] 0x10 = true := by decide

/-- The invariant refuses a status with B set, or with the unused bit set. -/
theorem test_invariant_refuses_status_bits :
    ¬ State.Inv { zero with p := 0x10 } ∧ ¬ State.Inv { zero with p := 0x20 } := by
  constructor
  · intro h
    exact absurd h.breakClear (by decide)
  · intro h
    exact absurd h.unusedClear (by decide)

/-- A decoded instruction is well-formed, whatever it is: the pair of each constructor is in the table. -/
theorem test_every_pair_legal (i : Instr) : i.wf = true := by
  cases i <;> rfl

/-- Writing the blank byte removes the cell, so that equal memories are equal data. -/
theorem test_blank_write_removes_cell : Memory.set [(1, 7), (5, 9)] 5 0 = [(1, 7)] := by decide

/-! ### Decoding: one word for each of the 151 opcodes, written from the grid of 30_encoding.md R54 and the operand layout of R51 and
R52. A 16-bit operand 0x1234 lies as 34 12. -/

theorem test_decode_lda :
    decode .one [0xA1, 0x81] = .ok (.ldaIndirectX 0x81, []) ∧
    decode .one [0xA5, 0x81] = .ok (.ldaZeroPage 0x81, []) ∧
    decode .one [0xA9, 0x81] = .ok (.ldaImmediate 0x81, []) ∧
    decode .one [0xAD, 0x34, 0x12] = .ok (.ldaAbsolute 0x1234, []) ∧
    decode .one [0xB1, 0x81] = .ok (.ldaIndirectY 0x81, []) ∧
    decode .one [0xB5, 0x81] = .ok (.ldaZeroPageX 0x81, []) ∧
    decode .one [0xB9, 0x34, 0x12] = .ok (.ldaAbsoluteY 0x1234, []) ∧
    decode .one [0xBD, 0x34, 0x12] = .ok (.ldaAbsoluteX 0x1234, []) := by
  decide

theorem test_decode_ldx :
    decode .one [0xA2, 0x81] = .ok (.ldxImmediate 0x81, []) ∧
    decode .one [0xA6, 0x81] = .ok (.ldxZeroPage 0x81, []) ∧
    decode .one [0xAE, 0x34, 0x12] = .ok (.ldxAbsolute 0x1234, []) ∧
    decode .one [0xB6, 0x81] = .ok (.ldxZeroPageY 0x81, []) ∧
    decode .one [0xBE, 0x34, 0x12] = .ok (.ldxAbsoluteY 0x1234, []) := by
  decide

theorem test_decode_ldy :
    decode .one [0xA0, 0x81] = .ok (.ldyImmediate 0x81, []) ∧
    decode .one [0xA4, 0x81] = .ok (.ldyZeroPage 0x81, []) ∧
    decode .one [0xAC, 0x34, 0x12] = .ok (.ldyAbsolute 0x1234, []) ∧
    decode .one [0xB4, 0x81] = .ok (.ldyZeroPageX 0x81, []) ∧
    decode .one [0xBC, 0x34, 0x12] = .ok (.ldyAbsoluteX 0x1234, []) := by
  decide

theorem test_decode_sta :
    decode .one [0x81, 0x81] = .ok (.staIndirectX 0x81, []) ∧
    decode .one [0x85, 0x81] = .ok (.staZeroPage 0x81, []) ∧
    decode .one [0x8D, 0x34, 0x12] = .ok (.staAbsolute 0x1234, []) ∧
    decode .one [0x91, 0x81] = .ok (.staIndirectY 0x81, []) ∧
    decode .one [0x95, 0x81] = .ok (.staZeroPageX 0x81, []) ∧
    decode .one [0x99, 0x34, 0x12] = .ok (.staAbsoluteY 0x1234, []) ∧
    decode .one [0x9D, 0x34, 0x12] = .ok (.staAbsoluteX 0x1234, []) := by
  decide

theorem test_decode_stx :
    decode .one [0x86, 0x81] = .ok (.stxZeroPage 0x81, []) ∧
    decode .one [0x8E, 0x34, 0x12] = .ok (.stxAbsolute 0x1234, []) ∧
    decode .one [0x96, 0x81] = .ok (.stxZeroPageY 0x81, []) := by
  decide

theorem test_decode_sty :
    decode .one [0x84, 0x81] = .ok (.styZeroPage 0x81, []) ∧
    decode .one [0x8C, 0x34, 0x12] = .ok (.styAbsolute 0x1234, []) ∧
    decode .one [0x94, 0x81] = .ok (.styZeroPageX 0x81, []) := by
  decide

theorem test_decode_tax :
    decode .one [0xAA] = .ok (.tax, []) := by
  decide

theorem test_decode_tay :
    decode .one [0xA8] = .ok (.tay, []) := by
  decide

theorem test_decode_txa :
    decode .one [0x8A] = .ok (.txa, []) := by
  decide

theorem test_decode_tya :
    decode .one [0x98] = .ok (.tya, []) := by
  decide

theorem test_decode_adc :
    decode .one [0x61, 0x81] = .ok (.adcIndirectX 0x81, []) ∧
    decode .one [0x65, 0x81] = .ok (.adcZeroPage 0x81, []) ∧
    decode .one [0x69, 0x81] = .ok (.adcImmediate 0x81, []) ∧
    decode .one [0x6D, 0x34, 0x12] = .ok (.adcAbsolute 0x1234, []) ∧
    decode .one [0x71, 0x81] = .ok (.adcIndirectY 0x81, []) ∧
    decode .one [0x75, 0x81] = .ok (.adcZeroPageX 0x81, []) ∧
    decode .one [0x79, 0x34, 0x12] = .ok (.adcAbsoluteY 0x1234, []) ∧
    decode .one [0x7D, 0x34, 0x12] = .ok (.adcAbsoluteX 0x1234, []) := by
  decide

theorem test_decode_sbc :
    decode .one [0xE1, 0x81] = .ok (.sbcIndirectX 0x81, []) ∧
    decode .one [0xE5, 0x81] = .ok (.sbcZeroPage 0x81, []) ∧
    decode .one [0xE9, 0x81] = .ok (.sbcImmediate 0x81, []) ∧
    decode .one [0xED, 0x34, 0x12] = .ok (.sbcAbsolute 0x1234, []) ∧
    decode .one [0xF1, 0x81] = .ok (.sbcIndirectY 0x81, []) ∧
    decode .one [0xF5, 0x81] = .ok (.sbcZeroPageX 0x81, []) ∧
    decode .one [0xF9, 0x34, 0x12] = .ok (.sbcAbsoluteY 0x1234, []) ∧
    decode .one [0xFD, 0x34, 0x12] = .ok (.sbcAbsoluteX 0x1234, []) := by
  decide

theorem test_decode_cmp :
    decode .one [0xC1, 0x81] = .ok (.cmpIndirectX 0x81, []) ∧
    decode .one [0xC5, 0x81] = .ok (.cmpZeroPage 0x81, []) ∧
    decode .one [0xC9, 0x81] = .ok (.cmpImmediate 0x81, []) ∧
    decode .one [0xCD, 0x34, 0x12] = .ok (.cmpAbsolute 0x1234, []) ∧
    decode .one [0xD1, 0x81] = .ok (.cmpIndirectY 0x81, []) ∧
    decode .one [0xD5, 0x81] = .ok (.cmpZeroPageX 0x81, []) ∧
    decode .one [0xD9, 0x34, 0x12] = .ok (.cmpAbsoluteY 0x1234, []) ∧
    decode .one [0xDD, 0x34, 0x12] = .ok (.cmpAbsoluteX 0x1234, []) := by
  decide

theorem test_decode_cpx :
    decode .one [0xE0, 0x81] = .ok (.cpxImmediate 0x81, []) ∧
    decode .one [0xE4, 0x81] = .ok (.cpxZeroPage 0x81, []) ∧
    decode .one [0xEC, 0x34, 0x12] = .ok (.cpxAbsolute 0x1234, []) := by
  decide

theorem test_decode_cpy :
    decode .one [0xC0, 0x81] = .ok (.cpyImmediate 0x81, []) ∧
    decode .one [0xC4, 0x81] = .ok (.cpyZeroPage 0x81, []) ∧
    decode .one [0xCC, 0x34, 0x12] = .ok (.cpyAbsolute 0x1234, []) := by
  decide

theorem test_decode_inc :
    decode .one [0xE6, 0x81] = .ok (.incZeroPage 0x81, []) ∧
    decode .one [0xEE, 0x34, 0x12] = .ok (.incAbsolute 0x1234, []) ∧
    decode .one [0xF6, 0x81] = .ok (.incZeroPageX 0x81, []) ∧
    decode .one [0xFE, 0x34, 0x12] = .ok (.incAbsoluteX 0x1234, []) := by
  decide

theorem test_decode_dec :
    decode .one [0xC6, 0x81] = .ok (.decZeroPage 0x81, []) ∧
    decode .one [0xCE, 0x34, 0x12] = .ok (.decAbsolute 0x1234, []) ∧
    decode .one [0xD6, 0x81] = .ok (.decZeroPageX 0x81, []) ∧
    decode .one [0xDE, 0x34, 0x12] = .ok (.decAbsoluteX 0x1234, []) := by
  decide

theorem test_decode_inx :
    decode .one [0xE8] = .ok (.inx, []) := by
  decide

theorem test_decode_iny :
    decode .one [0xC8] = .ok (.iny, []) := by
  decide

theorem test_decode_dex :
    decode .one [0xCA] = .ok (.dex, []) := by
  decide

theorem test_decode_dey :
    decode .one [0x88] = .ok (.dey, []) := by
  decide

theorem test_decode_and :
    decode .one [0x21, 0x81] = .ok (.andIndirectX 0x81, []) ∧
    decode .one [0x25, 0x81] = .ok (.andZeroPage 0x81, []) ∧
    decode .one [0x29, 0x81] = .ok (.andImmediate 0x81, []) ∧
    decode .one [0x2D, 0x34, 0x12] = .ok (.andAbsolute 0x1234, []) ∧
    decode .one [0x31, 0x81] = .ok (.andIndirectY 0x81, []) ∧
    decode .one [0x35, 0x81] = .ok (.andZeroPageX 0x81, []) ∧
    decode .one [0x39, 0x34, 0x12] = .ok (.andAbsoluteY 0x1234, []) ∧
    decode .one [0x3D, 0x34, 0x12] = .ok (.andAbsoluteX 0x1234, []) := by
  decide

theorem test_decode_ora :
    decode .one [0x01, 0x81] = .ok (.oraIndirectX 0x81, []) ∧
    decode .one [0x05, 0x81] = .ok (.oraZeroPage 0x81, []) ∧
    decode .one [0x09, 0x81] = .ok (.oraImmediate 0x81, []) ∧
    decode .one [0x0D, 0x34, 0x12] = .ok (.oraAbsolute 0x1234, []) ∧
    decode .one [0x11, 0x81] = .ok (.oraIndirectY 0x81, []) ∧
    decode .one [0x15, 0x81] = .ok (.oraZeroPageX 0x81, []) ∧
    decode .one [0x19, 0x34, 0x12] = .ok (.oraAbsoluteY 0x1234, []) ∧
    decode .one [0x1D, 0x34, 0x12] = .ok (.oraAbsoluteX 0x1234, []) := by
  decide

theorem test_decode_eor :
    decode .one [0x41, 0x81] = .ok (.eorIndirectX 0x81, []) ∧
    decode .one [0x45, 0x81] = .ok (.eorZeroPage 0x81, []) ∧
    decode .one [0x49, 0x81] = .ok (.eorImmediate 0x81, []) ∧
    decode .one [0x4D, 0x34, 0x12] = .ok (.eorAbsolute 0x1234, []) ∧
    decode .one [0x51, 0x81] = .ok (.eorIndirectY 0x81, []) ∧
    decode .one [0x55, 0x81] = .ok (.eorZeroPageX 0x81, []) ∧
    decode .one [0x59, 0x34, 0x12] = .ok (.eorAbsoluteY 0x1234, []) ∧
    decode .one [0x5D, 0x34, 0x12] = .ok (.eorAbsoluteX 0x1234, []) := by
  decide

theorem test_decode_bit :
    decode .one [0x24, 0x81] = .ok (.bitZeroPage 0x81, []) ∧
    decode .one [0x2C, 0x34, 0x12] = .ok (.bitAbsolute 0x1234, []) := by
  decide

theorem test_decode_asl :
    decode .one [0x06, 0x81] = .ok (.aslZeroPage 0x81, []) ∧
    decode .one [0x0A] = .ok (.aslAccumulator, []) ∧
    decode .one [0x0E, 0x34, 0x12] = .ok (.aslAbsolute 0x1234, []) ∧
    decode .one [0x16, 0x81] = .ok (.aslZeroPageX 0x81, []) ∧
    decode .one [0x1E, 0x34, 0x12] = .ok (.aslAbsoluteX 0x1234, []) := by
  decide

theorem test_decode_lsr :
    decode .one [0x46, 0x81] = .ok (.lsrZeroPage 0x81, []) ∧
    decode .one [0x4A] = .ok (.lsrAccumulator, []) ∧
    decode .one [0x4E, 0x34, 0x12] = .ok (.lsrAbsolute 0x1234, []) ∧
    decode .one [0x56, 0x81] = .ok (.lsrZeroPageX 0x81, []) ∧
    decode .one [0x5E, 0x34, 0x12] = .ok (.lsrAbsoluteX 0x1234, []) := by
  decide

theorem test_decode_rol :
    decode .one [0x26, 0x81] = .ok (.rolZeroPage 0x81, []) ∧
    decode .one [0x2A] = .ok (.rolAccumulator, []) ∧
    decode .one [0x2E, 0x34, 0x12] = .ok (.rolAbsolute 0x1234, []) ∧
    decode .one [0x36, 0x81] = .ok (.rolZeroPageX 0x81, []) ∧
    decode .one [0x3E, 0x34, 0x12] = .ok (.rolAbsoluteX 0x1234, []) := by
  decide

theorem test_decode_ror :
    decode .one [0x66, 0x81] = .ok (.rorZeroPage 0x81, []) ∧
    decode .one [0x6A] = .ok (.rorAccumulator, []) ∧
    decode .one [0x6E, 0x34, 0x12] = .ok (.rorAbsolute 0x1234, []) ∧
    decode .one [0x76, 0x81] = .ok (.rorZeroPageX 0x81, []) ∧
    decode .one [0x7E, 0x34, 0x12] = .ok (.rorAbsoluteX 0x1234, []) := by
  decide

theorem test_decode_bpl :
    decode .one [0x10, 0x81] = .ok (.bpl 0x81, []) := by
  decide

theorem test_decode_bmi :
    decode .one [0x30, 0x81] = .ok (.bmi 0x81, []) := by
  decide

theorem test_decode_bvc :
    decode .one [0x50, 0x81] = .ok (.bvc 0x81, []) := by
  decide

theorem test_decode_bvs :
    decode .one [0x70, 0x81] = .ok (.bvs 0x81, []) := by
  decide

theorem test_decode_bcc :
    decode .one [0x90, 0x81] = .ok (.bcc 0x81, []) := by
  decide

theorem test_decode_bcs :
    decode .one [0xB0, 0x81] = .ok (.bcs 0x81, []) := by
  decide

theorem test_decode_bne :
    decode .one [0xD0, 0x81] = .ok (.bne 0x81, []) := by
  decide

theorem test_decode_beq :
    decode .one [0xF0, 0x81] = .ok (.beq 0x81, []) := by
  decide

theorem test_decode_jmp :
    decode .one [0x4C, 0x34, 0x12] = .ok (.jmpAbsolute 0x1234, []) ∧
    decode .one [0x6C, 0x34, 0x12] = .ok (.jmpIndirect 0x1234, []) := by
  decide

theorem test_decode_jsr :
    decode .one [0x20, 0x34, 0x12] = .ok (.jsr 0x1234, []) := by
  decide

theorem test_decode_rts :
    decode .one [0x60] = .ok (.rts, []) := by
  decide

theorem test_decode_brk :
    decode .one [0x00] = .ok (.brk, []) := by
  decide

theorem test_decode_rti :
    decode .one [0x40] = .ok (.rti, []) := by
  decide

theorem test_decode_pha :
    decode .one [0x48] = .ok (.pha, []) := by
  decide

theorem test_decode_php :
    decode .one [0x08] = .ok (.php, []) := by
  decide

theorem test_decode_pla :
    decode .one [0x68] = .ok (.pla, []) := by
  decide

theorem test_decode_plp :
    decode .one [0x28] = .ok (.plp, []) := by
  decide

theorem test_decode_tsx :
    decode .one [0xBA] = .ok (.tsx, []) := by
  decide

theorem test_decode_txs :
    decode .one [0x9A] = .ok (.txs, []) := by
  decide

theorem test_decode_clc :
    decode .one [0x18] = .ok (.clc, []) := by
  decide

theorem test_decode_sec :
    decode .one [0x38] = .ok (.sec, []) := by
  decide

theorem test_decode_cli :
    decode .one [0x58] = .ok (.cli, []) := by
  decide

theorem test_decode_sei :
    decode .one [0x78] = .ok (.sei, []) := by
  decide

theorem test_decode_cld :
    decode .one [0xD8] = .ok (.cld, []) := by
  decide

theorem test_decode_sed :
    decode .one [0xF8] = .ok (.sed, []) := by
  decide

theorem test_decode_clv :
    decode .one [0xB8] = .ok (.clv, []) := by
  decide

theorem test_decode_nop :
    decode .one [0xEA] = .ok (.nop, []) := by
  decide

/-- 30_encoding.md R53: the pad byte of IMM_WIDTH = 2 is skipped unread, and the byte after it is left. -/
theorem test_decode_pad_byte : decode .two [0xA9, 0x05, 0x77, 0xEA] = .ok (.ldaImmediate 0x05, [0xEA]) := by decide

/-- R55, R57: an undefined opcode is refused by name before any operand byte; cut-off bytes are refused by name. -/
theorem test_decode_refuses :
    decode .one [0x9E, 0x00, 0x00] = .error (.undefinedOpcode 0x9E) ∧ decode .one [] = .error .truncated ∧
    decode .one [0xA9] = .error .truncated ∧ decode .one [0x4C, 0x00] = .error .truncated := by decide

/-- 30_encoding.md R59: the encoder pads an immediate operand with 00 under IMM_WIDTH = 2. -/
theorem test_encode_pads :
    encode .two (.ldaImmediate 0x05) = [0xA9, 0x05, 0x00] ∧ encode .one (.ldaImmediate 0x05) = [0xA9, 0x05] ∧
    encode .two (.jmpIndirect 0x12FF) = [0x6C, 0xFF, 0x12] ∧ encode .two .nop = [0xEA] := by decide

/-- The opcode table's numbering of bits: bits 23:8 hold an absolute operand, low byte first. -/
theorem test_table_word : decodeTableWord 24 0x1234AD = some (.ldaAbsolute 0x1234) ∧ decodeTableWord 8 0x02 = none := by decide

/-- nbits may be shorter than the instruction: the bits above are zero. -/
theorem test_table_word_short : decodeTableWord 8 0xFFFFAD = some (.ldaAbsolute 0x0000) := by decide

/-- The word is the first instruction after reset. -/
theorem test_fetch_word : stepsTo (State.reset.withFetchWord 16 0x05A9) (fun s => { s with a := 0x05, pc := 0x0002 }) = true := by decide

/-! ### One step: the addressing modes and undefined opcodes (vectors V-AM, V-DC) -/

/-- V-AM-01: Accumulator: width 0. -/
theorem test_V_AM_01 :
    stepsTo { zero with a := 0x01, pc := 0x0200, mem := bytes [(0x0200, [0x0A])] }
      (fun s => { s with a := 0x02, pc := 0x0201 }) = true := by decide

/-- V-AM-02: Immediate, width 1. -/
theorem test_V_AM_02 :
    stepsTo { zero with pc := 0x0200, mem := bytes [(0x0200, [0xA9, 0x7F])] }
      (fun s => { s with a := 0x7F, pc := 0x0202 }) = true := by decide

/-- V-AM-03: Immediate under IMM_WIDTH=2: PC += 2, pad byte not read. -/
theorem test_V_AM_03 :
    stepsTo { zero with cfg := wide, pc := 0x0200, mem := bytes [(0x0200, [0xA9, 0x7F, 0x00])] }
      (fun s => { s with a := 0x7F, pc := 0x0203 }) = true := by decide

/-- V-AM-04: IMM_WIDTH=2 at top: operand at FFFF, PC wraps, pad at 0000 not read. -/
theorem test_V_AM_04 :
    stepsTo { zero with cfg := wide, pc := 0xFFFE, mem := bytes [(0xFFFE, [0xA9, 0x11])] }
      (fun s => { s with a := 0x11, pc := 0x0001 }) = true := by decide

/-- V-AM-05: Implied: width 0. -/
theorem test_V_AM_05 :
    stepsTo { zero with pc := 0x0200, mem := bytes [(0x0200, [0xEA])] }
      (fun s => { s with pc := 0x0201 }) = true := by decide

/-- V-AM-06: ZeroPage. -/
theorem test_V_AM_06 :
    stepsTo { zero with pc := 0x0200, mem := bytes [(0x0010, [0x33]), (0x0200, [0xA5, 0x10])] }
      (fun s => { s with a := 0x33, pc := 0x0202 }) = true := by decide

/-- V-AM-07: ZeroPageX wraps: EA=0x00 not 0x100 (source §8). -/
theorem test_V_AM_07 :
    stepsTo { zero with x := 0x01, pc := 0x0200, mem := bytes [(0x0000, [0x44]), (0x0100, [0x55]), (0x0200, [0xB5, 0xFF])] }
      (fun s => { s with a := 0x44, pc := 0x0202 }) = true := by decide

/-- V-AM-08: ZeroPageY wraps: EA=0x10. -/
theorem test_V_AM_08 :
    stepsTo { zero with y := 0x20, pc := 0x0200, mem := bytes [(0x0010, [0x66]), (0x0200, [0xB6, 0xF0])] }
      (fun s => { s with x := 0x66, pc := 0x0202 }) = true := by decide

/-- V-AM-09: Absolute, little-endian address. -/
theorem test_V_AM_09 :
    stepsTo { zero with pc := 0x0200, mem := bytes [(0x1234, [0x77]), (0x0200, [0xAD, 0x34, 0x12])] }
      (fun s => { s with a := 0x77, pc := 0x0203 }) = true := by decide

/-- V-AM-10: AbsoluteX crosses page: EA=0x1300, no masking. -/
theorem test_V_AM_10 :
    stepsTo { zero with x := 0x01, pc := 0x0200, mem := bytes [(0x1300, [0x88]), (0x1200, [0x99]), (0x0200, [0xBD, 0xFF, 0x12])] }
      (fun s => { s with a := 0x88, p := 0x80, pc := 0x0203 }) = true := by decide

/-- V-AM-11: AbsoluteX sum 0x10000 is not wrapped. -/
theorem test_V_AM_11 :
    faultsWith (step { zero with x := 0x01, pc := 0x0200, mem := bytes [(0x0200, [0xBD, 0xFF, 0xFF])] }) (.outOfBounds 0x10000) = true := by decide

/-- V-AM-12: AbsoluteY to the last byte. -/
theorem test_V_AM_12 :
    stepsTo { zero with y := 0x0F, pc := 0x0200, mem := bytes [(0xFFFF, [0xAB]), (0x0200, [0xB9, 0xF0, 0xFF])] }
      (fun s => { s with a := 0xAB, p := 0x80, pc := 0x0203 }) = true := by decide

/-- V-AM-13: Indirect: no page wrap of pointer high byte. -/
theorem test_V_AM_13 :
    stepsTo { zero with pc := 0x0200, mem := bytes [(0x12FF, [0x34]), (0x1300, [0x12]), (0x1200, [0x56]), (0x0200, [0x6C, 0xFF, 0x12])] }
      (fun s => { s with pc := 0x1234 }) = true := by decide

/-- V-AM-14: Indirect pointer word at FFFF faults. -/
theorem test_V_AM_14 :
    faultsWith (step { zero with pc := 0x0200, mem := bytes [(0x0200, [0x6C, 0xFF, 0xFF])] }) (.outOfBounds 0x10000) = true := by decide

/-- V-AM-15: IndirectX: pointer at 0x24. -/
theorem test_V_AM_15 :
    stepsTo { zero with x := 0x04, pc := 0x0200, mem := bytes [(0x0024, [0x00, 0x30]), (0x3000, [0x5A]), (0x0200, [0xA1, 0x20])] }
      (fun s => { s with a := 0x5A, pc := 0x0202 }) = true := by decide

/-- V-AM-16: IndirectX: ptrAddr=0xFF, high byte from 0x0100 (not 0x0000). -/
theorem test_V_AM_16 :
    stepsTo { zero with x := 0x01, pc := 0x0200, mem := bytes [(0x0100, [0x40]), (0x0000, [0x50]), (0x4000, [0xC3]), (0x5000, [0x3C]), (0x0200, [0xA1, 0xFE])] }
      (fun s => { s with a := 0xC3, p := 0x80, pc := 0x0202 }) = true := by decide

/-- V-AM-17: IndirectY, INDY_INDEX=Y. -/
theorem test_V_AM_17 :
    stepsTo { zero with x := 0x05, y := 0x10, pc := 0x0200, mem := bytes [(0x0040, [0x00, 0x20]), (0x2010, [0x11]), (0x2005, [0x22]), (0x0200, [0xB1, 0x40])] }
      (fun s => { s with a := 0x11, pc := 0x0202 }) = true := by decide

/-- V-AM-18: IndirectY, INDY_INDEX=X (source's code). -/
theorem test_V_AM_18 :
    stepsTo { zero with cfg := byX, x := 0x05, y := 0x10, pc := 0x0200, mem := bytes [(0x0040, [0x00, 0x20]), (0x2010, [0x11]), (0x2005, [0x22]), (0x0200, [0xB1, 0x40])] }
      (fun s => { s with a := 0x22, pc := 0x0202 }) = true := by decide

/-- V-AM-19: IndirectY sum 0x10000 faults. -/
theorem test_V_AM_19 :
    faultsWith (step { zero with y := 0x01, pc := 0x0200, mem := bytes [(0x0040, [0xFF, 0xFF]), (0x0200, [0xB1, 0x40])] }) (.outOfBounds 0x10000) = true := by decide

/-- V-AM-20: IndirectY: pointer at 0xFF reads 0xFF and 0x100. -/
theorem test_V_AM_20 :
    stepsTo { zero with pc := 0x0200, mem := bytes [(0x0100, [0x40]), (0x4000, [0x9D]), (0x0200, [0xB1, 0xFF])] }
      (fun s => { s with a := 0x9D, p := 0x80, pc := 0x0202 }) = true := by decide

/-- V-AM-21: value read at 0x0100 with MEM_SIZE=0x0100. -/
theorem test_V_AM_21 :
    faultsWith (step { zero with cfg := small 0x0100, pc := 0x0010, mem := bytes [(0x0010, [0xAD, 0x00, 0x01])] }) (.outOfBounds 0x0100) = true := by decide

/-- V-AM-22: PC wraps: operand byte at 0x0000. -/
theorem test_V_AM_22 :
    stepsTo { zero with pc := 0xFFFF, mem := bytes [(0x0000, [0x42]), (0xFFFF, [0xA9])] }
      (fun s => { s with a := 0x42, pc := 0x0001 }) = true := by decide

/-- V-AM-23: 2-byte operand at FFFF..10000 faults. -/
theorem test_V_AM_23 :
    faultsWith (step { zero with pc := 0xFFFE, mem := bytes [(0xFFFE, [0xAD])] }) (.outOfBounds 0x10000) = true := by decide

/-- V-AM-24: opcode fetch beyond MEM_SIZE faults. -/
theorem test_V_AM_24 :
    faultsWith (step { zero with cfg := small 0x0100, pc := 0x0100, mem := bytes [(0x0100, [0xEA])] }) (.outOfBounds 0x0100) = true := by decide

/-- V-DC-01: undefined opcode. -/
theorem test_V_DC_01 :
    faultsWith (step { zero with a := 0x11, pc := 0x0200, mem := bytes [(0x0200, [0x02, 0x00, 0x00])] }) (.undefinedOpcode 0x02) = true := by decide

/-- V-DC-09: undefined at FFFF: UndefinedOpcode, no operand read. -/
theorem test_V_DC_09 :
    faultsWith (step { zero with a := 0x11, pc := 0xFFFF, mem := bytes [(0xFFFF, [0x02])] }) (.undefinedOpcode 0x02) = true := by decide

/-! ### One step: the instructions, at most two vectors each -/

/-- V-LS-01: LDA 0: Z=1, N=0 (source §8). -/
theorem test_V_LS_01 :
    stepsTo { zero with p := 0x80, pc := 0x0200, mem := bytes [(0x0200, [0xA9, 0x00])] }
      (fun s => { s with p := 0x02, pc := 0x0202 }) = true := by decide

/-- V-LS-02: LDA 0x80: N=1 (source §8). -/
theorem test_V_LS_02 :
    stepsTo { zero with p := 0x02, pc := 0x0200, mem := bytes [(0x0200, [0xA9, 0x80])] }
      (fun s => { s with a := 0x80, p := 0x80, pc := 0x0202 }) = true := by decide

/-- V-LS-03: LDX: C and V kept. -/
theorem test_V_LS_03 :
    stepsTo { zero with p := 0x41, pc := 0x0200, mem := bytes [(0x0200, [0xA2, 0xFF])] }
      (fun s => { s with x := 0xFF, p := 0xC1, pc := 0x0202 }) = true := by decide

/-- V-LS-04: LDY abs,X. -/
theorem test_V_LS_04 :
    stepsTo { zero with x := 0x02, pc := 0x0200, mem := bytes [(0x3002, [0x01]), (0x0200, [0xBC, 0x00, 0x30])] }
      (fun s => { s with y := 0x01, pc := 0x0203 }) = true := by decide

/-- V-LS-05: LDX abs,Y: Z=1. -/
theorem test_V_LS_05 :
    stepsTo { zero with y := 0x03, pc := 0x0200, mem := bytes [(0x0200, [0xBE, 0x00, 0x30])] }
      (fun s => { s with p := 0x02, pc := 0x0203 }) = true := by decide

/-- V-LS-06: STA (zp),Y: 0x20FF+1 = 0x2100. -/
theorem test_V_LS_06 :
    stepsTo { zero with a := 0x5A, y := 0x01, pc := 0x0200, mem := bytes [(0x0040, [0xFF, 0x20]), (0x0200, [0x91, 0x40])] }
      (fun s => { s with pc := 0x0202, mem := putAll s.mem [(0x2100, [0x5A])] }) = true := by decide

/-- V-LS-08: STX zp,Y wraps to 0x01. -/
theorem test_V_LS_08 :
    stepsTo { zero with x := 0x11, y := 0x02, pc := 0x0200, mem := bytes [(0x0200, [0x96, 0xFF])] }
      (fun s => { s with pc := 0x0202, mem := putAll s.mem [(0x0001, [0x11])] }) = true := by decide

/-- V-LS-09: STY abs: flags unchanged. -/
theorem test_V_LS_09 :
    stepsTo { zero with y := 0x33, p := 0x83, pc := 0x0200, mem := bytes [(0x0200, [0x8C, 0x34, 0x12])] }
      (fun s => { s with pc := 0x0203, mem := putAll s.mem [(0x1234, [0x33])] }) = true := by decide

/-- V-LS-10: STA beyond MEM_SIZE: faults in the resolver read. -/
theorem test_V_LS_10 :
    faultsWith (step { zero with cfg := small 0x8000, a := 0x01, pc := 0x0010, mem := bytes [(0x0010, [0x8D, 0x00, 0x80])] }) (.outOfBounds 0x8000) = true := by decide

/-- V-LS-11: TAX. -/
theorem test_V_LS_11 :
    stepsTo { zero with a := 0x80, pc := 0x0200, mem := bytes [(0x0200, [0xAA])] }
      (fun s => { s with x := 0x80, p := 0x80, pc := 0x0201 }) = true := by decide

/-- V-LS-12: TAY: Z=1. -/
theorem test_V_LS_12 :
    stepsTo { zero with y := 0x12, pc := 0x0200, mem := bytes [(0x0200, [0xA8])] }
      (fun s => { s with y := 0x00, p := 0x02, pc := 0x0201 }) = true := by decide

/-- V-LS-13: TXA: N cleared. -/
theorem test_V_LS_13 :
    stepsTo { zero with a := 0xFF, x := 0x7F, p := 0x80, pc := 0x0200, mem := bytes [(0x0200, [0x8A])] }
      (fun s => { s with a := 0x7F, p := 0x00, pc := 0x0201 }) = true := by decide

/-- V-LS-14: TYA. -/
theorem test_V_LS_14 :
    stepsTo { zero with y := 0xC0, pc := 0x0200, mem := bytes [(0x0200, [0x98])] }
      (fun s => { s with a := 0xC0, p := 0x80, pc := 0x0201 }) = true := by decide

/-- V-AR-05: ADC: 0x80 + 0x80 + 0. -/
theorem test_V_AR_05 :
    stepsTo { zero with a := 0x80, pc := 0x0200, mem := bytes [(0x0200, [0x69, 0x80])] }
      (fun s => { s with a := 0x00, p := 0x43, pc := 0x0202 }) = true := by decide

/-- V-AR-14: SBC: 0x80 - 0x01 - (1-1). -/
theorem test_V_AR_14 :
    stepsTo { zero with a := 0x80, p := 0x01, pc := 0x0200, mem := bytes [(0x0200, [0xE9, 0x01])] }
      (fun s => { s with a := 0x7F, p := 0x41, pc := 0x0202 }) = true := by decide

/-- V-AR-21: ADC with D=1, DECIMAL_MODE=refuse. -/
theorem test_V_AR_21 :
    refusesDecimal (step { zero with cfg := noDecimal, a := 0x09, p := 0x08, pc := 0x0200, mem := bytes [(0x0200, [0x69, 0x01])] }) = true := by decide

/-- V-AR-22: SBC with D=1, DECIMAL_MODE=refuse. -/
theorem test_V_AR_22 :
    refusesDecimal (step { zero with cfg := noDecimal, a := 0x09, p := 0x09, pc := 0x0200, mem := bytes [(0x0200, [0xE9, 0x01])] }) = true := by decide

/-- V-CP-02: compare A=0x10 with 0x20; V kept. -/
theorem test_V_CP_02 :
    stepsTo { zero with a := 0x10, p := 0x40, pc := 0x0200, mem := bytes [(0x0200, [0xC9, 0x20])] }
      (fun s => { s with p := 0xC0, pc := 0x0202 }) = true := by decide

/-- V-CP-04: compare A=0x80 with 0x01; V kept. -/
theorem test_V_CP_04 :
    stepsTo { zero with a := 0x80, p := 0x40, pc := 0x0200, mem := bytes [(0x0200, [0xC9, 0x01])] }
      (fun s => { s with p := 0x41, pc := 0x0202 }) = true := by decide

/-- V-CP-06: compare X=0x05 with 0x05; V kept. -/
theorem test_V_CP_06 :
    stepsTo { zero with x := 0x05, p := 0x40, pc := 0x0200, mem := bytes [(0x0200, [0xE0, 0x05])] }
      (fun s => { s with p := 0x43, pc := 0x0202 }) = true := by decide

/-- V-CP-07: compare X=0xff with 0x00; V kept. -/
theorem test_V_CP_07 :
    stepsTo { zero with x := 0xFF, p := 0x40, pc := 0x0200, mem := bytes [(0x0200, [0xE0, 0x00])] }
      (fun s => { s with p := 0xC1, pc := 0x0202 }) = true := by decide

/-- V-CP-08: compare Y=0x00 with 0x01; V kept. -/
theorem test_V_CP_08 :
    stepsTo { zero with p := 0x40, pc := 0x0200, mem := bytes [(0x0200, [0xC0, 0x01])] }
      (fun s => { s with p := 0xC0, pc := 0x0202 }) = true := by decide

/-- V-CP-09: compare Y=0x7f with 0x80; V kept. -/
theorem test_V_CP_09 :
    stepsTo { zero with y := 0x7F, p := 0x40, pc := 0x0200, mem := bytes [(0x0200, [0xC0, 0x80])] }
      (fun s => { s with p := 0xC0, pc := 0x0202 }) = true := by decide

/-- V-ID-01: INC wraps, C kept. -/
theorem test_V_ID_01 :
    stepsTo { zero with p := 0x01, pc := 0x0200, mem := bytes [(0x0010, [0xFF]), (0x0200, [0xE6, 0x10])] }
      (fun s => { s with p := 0x03, pc := 0x0202, mem := putAll s.mem [(0x0010, [0x00])] }) = true := by decide

/-- V-ID-03: DEC zp,X wraps address to 0x01 and value to 0xFF. -/
theorem test_V_ID_03 :
    stepsTo { zero with x := 0x02, pc := 0x0200, mem := bytes [(0x0200, [0xD6, 0xFF])] }
      (fun s => { s with p := 0x80, pc := 0x0202, mem := putAll s.mem [(0x0001, [0xFF])] }) = true := by decide

/-- V-ID-04: DEC abs to 0. -/
theorem test_V_ID_04 :
    stepsTo { zero with pc := 0x0200, mem := bytes [(0x0300, [0x01]), (0x0200, [0xCE, 0x00, 0x03])] }
      (fun s => { s with p := 0x02, pc := 0x0203, mem := putAll s.mem [(0x0300, [0x00])] }) = true := by decide

/-- V-ID-05: INC abs,X page cross. -/
theorem test_V_ID_05 :
    stepsTo { zero with x := 0x01, pc := 0x0200, mem := bytes [(0x3100, [0x41]), (0x0200, [0xFE, 0xFF, 0x30])] }
      (fun s => { s with pc := 0x0203, mem := putAll s.mem [(0x3100, [0x42])] }) = true := by decide

/-- V-ID-06: INX wraps. -/
theorem test_V_ID_06 :
    stepsTo { zero with x := 0xFF, pc := 0x0200, mem := bytes [(0x0200, [0xE8])] }
      (fun s => { s with x := 0x00, p := 0x02, pc := 0x0201 }) = true := by decide

/-- V-ID-07: INY to 0x80. -/
theorem test_V_ID_07 :
    stepsTo { zero with y := 0x7F, pc := 0x0200, mem := bytes [(0x0200, [0xC8])] }
      (fun s => { s with y := 0x80, p := 0x80, pc := 0x0201 }) = true := by decide

/-- V-ID-08: DEX wraps. -/
theorem test_V_ID_08 :
    stepsTo { zero with pc := 0x0200, mem := bytes [(0x0200, [0xCA])] }
      (fun s => { s with x := 0xFF, p := 0x80, pc := 0x0201 }) = true := by decide

/-- V-ID-09: DEY to 0. -/
theorem test_V_ID_09 :
    stepsTo { zero with y := 0x01, pc := 0x0200, mem := bytes [(0x0200, [0x88])] }
      (fun s => { s with y := 0x00, p := 0x02, pc := 0x0201 }) = true := by decide

/-- V-LG-01: AND. -/
theorem test_V_LG_01 :
    stepsTo { zero with a := 0xF0, pc := 0x0200, mem := bytes [(0x0200, [0x29, 0x3C])] }
      (fun s => { s with a := 0x30, pc := 0x0202 }) = true := by decide

/-- V-LG-02: AND #0: Z=1. -/
theorem test_V_LG_02 :
    stepsTo { zero with a := 0xFF, p := 0x80, pc := 0x0200, mem := bytes [(0x0200, [0x29, 0x00])] }
      (fun s => { s with a := 0x00, p := 0x02, pc := 0x0202 }) = true := by decide

/-- V-LG-03: ORA. -/
theorem test_V_LG_03 :
    stepsTo { zero with a := 0x01, pc := 0x0200, mem := bytes [(0x0200, [0x09, 0x80])] }
      (fun s => { s with a := 0x81, p := 0x80, pc := 0x0202 }) = true := by decide

/-- V-LG-04: EOR self: Z=1. -/
theorem test_V_LG_04 :
    stepsTo { zero with a := 0xFF, pc := 0x0200, mem := bytes [(0x0200, [0x49, 0xFF])] }
      (fun s => { s with a := 0x00, p := 0x02, pc := 0x0202 }) = true := by decide

/-- V-LG-05: EOR. -/
theorem test_V_LG_05 :
    stepsTo { zero with a := 0xFF, pc := 0x0200, mem := bytes [(0x0200, [0x49, 0x0F])] }
      (fun s => { s with a := 0xF0, p := 0x80, pc := 0x0202 }) = true := by decide

/-- V-LG-06: BIT: V from bit 6. -/
theorem test_V_LG_06 :
    stepsTo { zero with a := 0x01, pc := 0x0200, mem := bytes [(0x0010, [0x41]), (0x0200, [0x24, 0x10])] }
      (fun s => { s with p := 0x40, pc := 0x0202 }) = true := by decide

/-- V-LG-07: BIT: Z=1, N=1, V=1 from memory; C kept. -/
theorem test_V_LG_07 :
    stepsTo { zero with p := 0x01, pc := 0x0200, mem := bytes [(0x0010, [0xC0]), (0x0200, [0x24, 0x10])] }
      (fun s => { s with p := 0xC3, pc := 0x0202 }) = true := by decide

/-- V-SH-01: ASL A. -/
theorem test_V_SH_01 :
    stepsTo { zero with a := 0xC1, pc := 0x0200, mem := bytes [(0x0200, [0x0A])] }
      (fun s => { s with a := 0x82, p := 0x81, pc := 0x0201 }) = true := by decide

/-- V-SH-03: ASL zp. -/
theorem test_V_SH_03 :
    stepsTo { zero with pc := 0x0200, mem := bytes [(0x0020, [0x40]), (0x0200, [0x06, 0x20])] }
      (fun s => { s with p := 0x80, pc := 0x0202, mem := putAll s.mem [(0x0020, [0x80])] }) = true := by decide

/-- V-SH-04: LSR A: N=0, Z=1, C=1. -/
theorem test_V_SH_04 :
    stepsTo { zero with a := 0x01, p := 0x80, pc := 0x0200, mem := bytes [(0x0200, [0x4A])] }
      (fun s => { s with a := 0x00, p := 0x03, pc := 0x0201 }) = true := by decide

/-- V-SH-05: LSR zp. -/
theorem test_V_SH_05 :
    stepsTo { zero with pc := 0x0200, mem := bytes [(0x0020, [0x03]), (0x0200, [0x46, 0x20])] }
      (fun s => { s with p := 0x01, pc := 0x0202, mem := putAll s.mem [(0x0020, [0x01])] }) = true := by decide

/-- V-SH-06: ROL A carry in. -/
theorem test_V_SH_06 :
    stepsTo { zero with a := 0x40, p := 0x01, pc := 0x0200, mem := bytes [(0x0200, [0x2A])] }
      (fun s => { s with a := 0x81, p := 0x80, pc := 0x0201 }) = true := by decide

/-- V-SH-08: ROL abs,X: mem[3001] is rewritten with its own value FF. -/
theorem test_V_SH_08 :
    stepsTo { zero with x := 0x01, p := 0x01, pc := 0x0200, mem := bytes [(0x3001, [0xFF]), (0x0200, [0x3E, 0x00, 0x30])] }
      (fun s => { s with p := 0x81, pc := 0x0203 }) = true := by decide

/-- V-SH-09: ROR A carry in to bit 7. -/
theorem test_V_SH_09 :
    stepsTo { zero with a := 0x02, p := 0x01, pc := 0x0200, mem := bytes [(0x0200, [0x6A])] }
      (fun s => { s with a := 0x81, p := 0x80, pc := 0x0201 }) = true := by decide

/-- V-SH-11: ROR zp,X wraps to 0x00. -/
theorem test_V_SH_11 :
    stepsTo { zero with x := 0x01, pc := 0x0200, mem := bytes [(0x0000, [0x81]), (0x0200, [0x76, 0xFF])] }
      (fun s => { s with p := 0x01, pc := 0x0202, mem := putAll s.mem [(0x0000, [0x40])] }) = true := by decide

/-- V-BR-01: BPL taken. -/
theorem test_V_BR_01 :
    stepsTo { zero with pc := 0x0010, mem := bytes [(0x0010, [0x10, 0x02])] }
      (fun s => { s with pc := 0x0014 }) = true := by decide

/-- V-BR-02: BPL not taken. -/
theorem test_V_BR_02 :
    stepsTo { zero with p := 0x80, pc := 0x0010, mem := bytes [(0x0010, [0x10, 0x02])] }
      (fun s => { s with pc := 0x0012 }) = true := by decide

/-- V-BR-03: BMI taken backward. -/
theorem test_V_BR_03 :
    stepsTo { zero with p := 0x80, pc := 0x0010, mem := bytes [(0x0010, [0x30, 0xFC])] }
      (fun s => { s with pc := 0x000E }) = true := by decide

/-- V-BR-04: BMI not taken. -/
theorem test_V_BR_04 :
    stepsTo { zero with pc := 0x0010, mem := bytes [(0x0010, [0x30, 0xFC])] }
      (fun s => { s with pc := 0x0012 }) = true := by decide

/-- V-BR-05: BVC self-loop. -/
theorem test_V_BR_05 :
    stepsTo { zero with pc := 0x0010, mem := bytes [(0x0010, [0x50, 0xFE])] }
      (fun s => { s with pc := 0x0010 }) = true := by decide

/-- V-BR-06: BVS -128. -/
theorem test_V_BR_06 :
    stepsTo { zero with p := 0x40, pc := 0x0100, mem := bytes [(0x0100, [0x70, 0x80])] }
      (fun s => { s with pc := 0x0082 }) = true := by decide

/-- V-BR-07: BVS not taken. -/
theorem test_V_BR_07 :
    stepsTo { zero with pc := 0x0100, mem := bytes [(0x0100, [0x70, 0x80])] }
      (fun s => { s with pc := 0x0102 }) = true := by decide

/-- V-BR-08: BCC +127. -/
theorem test_V_BR_08 :
    stepsTo { zero with pc := 0x0000, mem := bytes [(0x0000, [0x90, 0x7F])] }
      (fun s => { s with pc := 0x0081 }) = true := by decide

/-- V-BR-09: BCC not taken. -/
theorem test_V_BR_09 :
    stepsTo { zero with p := 0x01, pc := 0x0000, mem := bytes [(0x0000, [0x90, 0x7F])] }
      (fun s => { s with pc := 0x0002 }) = true := by decide

/-- V-BR-10: BCS wraps below 0. -/
theorem test_V_BR_10 :
    stepsTo { zero with p := 0x01, pc := 0x0003, mem := bytes [(0x0003, [0xB0, 0xF0])] }
      (fun s => { s with pc := 0xFFF5 }) = true := by decide

/-- V-BR-11: BCS wraps above FFFF. -/
theorem test_V_BR_11 :
    stepsTo { zero with p := 0x01, pc := 0xFFF0, mem := bytes [(0xFFF0, [0xB0, 0x10])] }
      (fun s => { s with pc := 0x0002 }) = true := by decide

/-- V-BR-12: BNE taken. -/
theorem test_V_BR_12 :
    stepsTo { zero with pc := 0x0008, mem := bytes [(0x0008, [0xD0, 0xFA])] }
      (fun s => { s with pc := 0x0004 }) = true := by decide

/-- V-BR-14: BEQ offset 0. -/
theorem test_V_BR_14 :
    stepsTo { zero with p := 0x02, pc := 0x0010, mem := bytes [(0x0010, [0xF0, 0x00])] }
      (fun s => { s with pc := 0x0012 }) = true := by decide

/-- V-BR-15: BEQ not taken. -/
theorem test_V_BR_15 :
    stepsTo { zero with pc := 0x0010, mem := bytes [(0x0010, [0xF0, 0x05])] }
      (fun s => { s with pc := 0x0012 }) = true := by decide

/-- V-BR-16: BNE under IMM_WIDTH=2: PC_seq=0x0013. -/
theorem test_V_BR_16 :
    stepsTo { zero with cfg := wide, pc := 0x0010, mem := bytes [(0x0010, [0xD0, 0x04, 0x00])] }
      (fun s => { s with pc := 0x0017 }) = true := by decide

/-- V-JS-02: JMP (ind). -/
theorem test_V_JS_02 :
    stepsTo { zero with pc := 0x0300, mem := bytes [(0x0200, [0x34, 0x12]), (0x0300, [0x6C, 0x00, 0x02])] }
      (fun s => { s with pc := 0x1234 }) = true := by decide

/-- V-JS-03: JMP abs beyond MEM_SIZE: target read faults. -/
theorem test_V_JS_03 :
    faultsWith (step { zero with cfg := small 0x9000, pc := 0x0010, mem := bytes [(0x0010, [0x4C, 0x00, 0x90])] }) (.outOfBounds 0x9000) = true := by decide

/-- V-JS-05: JSR with SP=0: pushes wrap 0x0100 then 0x01FF. -/
theorem test_V_JS_05 :
    stepsTo { zero with pc := 0x0200, mem := bytes [(0x0200, [0x20, 0x00, 0x10])] }
      (fun s => { s with sp := 0xFE, pc := 0x1000, mem := putAll s.mem [(0x0100, [0x02]), (0x01FF, [0x02])] }) = true := by decide

/-- V-JS-07: JSR, push at 0x01FF out of range. -/
theorem test_V_JS_07 :
    faultsWith (step { zero with cfg := small 0x01FF, sp := 0xFF, pc := 0x0010, mem := bytes [(0x0010, [0x20, 0x00, 0x00])] }) (.outOfBounds 0x01FF) = true := by decide

/-- V-JS-08: RTS. -/
theorem test_V_JS_08 :
    stepsTo { zero with sp := 0xFD, pc := 0x0200, mem := bytes [(0x01FE, [0x02, 0x02]), (0x0200, [0x60])] }
      (fun s => { s with sp := 0xFF, pc := 0x0203 }) = true := by decide

/-- V-JS-09: RTS from 0xFFFF wraps to 0x0000. -/
theorem test_V_JS_09 :
    stepsTo { zero with sp := 0xFD, pc := 0x0200, mem := bytes [(0x01FE, [0xFF, 0xFF]), (0x0200, [0x60])] }
      (fun s => { s with sp := 0xFF, pc := 0x0000 }) = true := by decide

/-- V-JS-11: BRK pushes P OR 0x30, keeps D. -/
theorem test_V_JS_11 :
    stepsTo { zero with p := 0xCB, sp := 0xFF, pc := 0x0300, mem := bytes [(0xFFFE, [0x00, 0x80]), (0x0300, [0x00])] }
      (fun s => { s with p := 0xCF, sp := 0xFC, pc := 0x8000, mem := putAll s.mem [(0x01FD, [0xFB]), (0x01FE, [0x02]), (0x01FF, [0x03])] }) = true := by decide

/-- V-JS-12: BRK vector read out of range: no push kept. -/
theorem test_V_JS_12 :
    faultsWith (step { zero with cfg := small 0x8000, sp := 0xFF, pc := 0x0300, mem := bytes [(0x0300, [0x00])] }) (.outOfBounds 0xFFFE) = true := by decide

/-- V-JS-13: RTI. -/
theorem test_V_JS_13 :
    stepsTo { zero with sp := 0xFC, pc := 0x0200, mem := bytes [(0x01FD, [0x30, 0x02, 0x03]), (0x0200, [0x40])] }
      (fun s => { s with sp := 0xFF, pc := 0x0302 }) = true := by decide

/-- V-JS-14: RTI: bits 5:4 cleared. -/
theorem test_V_JS_14 :
    stepsTo { zero with sp := 0xFC, pc := 0x0200, mem := bytes [(0x01FD, [0xFF, 0x00, 0x40]), (0x0200, [0x40])] }
      (fun s => { s with p := 0xCF, sp := 0xFF, pc := 0x4000 }) = true := by decide

/-- V-ST-02: PHA at SP=0 wraps SP to 0xFF. -/
theorem test_V_ST_02 :
    stepsTo { zero with a := 0x5A, pc := 0x0200, mem := bytes [(0x0200, [0x48])] }
      (fun s => { s with sp := 0xFF, pc := 0x0201, mem := putAll s.mem [(0x0100, [0x5A])] }) = true := by decide

/-- V-ST-03: PHP: pushed copy has bits 5:4 set. -/
theorem test_V_ST_03 :
    stepsTo { zero with p := 0x01, sp := 0xFF, pc := 0x0200, mem := bytes [(0x0200, [0x08])] }
      (fun s => { s with sp := 0xFE, pc := 0x0201, mem := putAll s.mem [(0x01FF, [0x31])] }) = true := by decide

/-- V-ST-04: PLA. -/
theorem test_V_ST_04 :
    stepsTo { zero with sp := 0xFE, pc := 0x0200, mem := bytes [(0x01FF, [0x80]), (0x0200, [0x68])] }
      (fun s => { s with a := 0x80, p := 0x80, sp := 0xFF, pc := 0x0201 }) = true := by decide

/-- V-ST-05: PLA at SP=0xFF wraps to 0x00, reads 0x0100. -/
theorem test_V_ST_05 :
    stepsTo { zero with a := 0x12, sp := 0xFF, pc := 0x0200, mem := bytes [(0x0200, [0x68])] }
      (fun s => { s with a := 0x00, p := 0x02, sp := 0x00, pc := 0x0201 }) = true := by decide

/-- V-ST-06: PLP masks bits 5:4. -/
theorem test_V_ST_06 :
    stepsTo { zero with sp := 0xFE, pc := 0x0200, mem := bytes [(0x01FF, [0xFF]), (0x0200, [0x28])] }
      (fun s => { s with p := 0xCF, sp := 0xFF, pc := 0x0201 }) = true := by decide

/-- V-ST-07: TSX. -/
theorem test_V_ST_07 :
    stepsTo { zero with sp := 0xFD, pc := 0x0200, mem := bytes [(0x0200, [0xBA])] }
      (fun s => { s with x := 0xFD, p := 0x80, pc := 0x0201 }) = true := by decide

/-- V-ST-08: TSX after reset. -/
theorem test_V_ST_08 :
    stepsTo { zero with pc := 0x0200, mem := bytes [(0x0200, [0xBA])] }
      (fun s => { s with p := 0x02, pc := 0x0201 }) = true := by decide

/-- V-ST-09: TXS: no flags. -/
theorem test_V_ST_09 :
    stepsTo { zero with x := 0xFF, p := 0x02, pc := 0x0200, mem := bytes [(0x0200, [0x9A])] }
      (fun s => { s with sp := 0xFF, pc := 0x0201 }) = true := by decide

/-- V-ST-10: PHA out of range. -/
theorem test_V_ST_10 :
    faultsWith (step { zero with cfg := small 0x0180, sp := 0x80, pc := 0x0010, mem := bytes [(0x0010, [0x48])] }) (.outOfBounds 0x0180) = true := by decide

/-- V-FL-01: CLC. -/
theorem test_V_FL_01 :
    stepsTo { zero with p := 0xCF, pc := 0x0010, mem := bytes [(0x0010, [0x18])] }
      (fun s => { s with p := 0xCE, pc := 0x0011 }) = true := by decide

/-- V-FL-02: SEC. -/
theorem test_V_FL_02 :
    stepsTo { zero with pc := 0x0010, mem := bytes [(0x0010, [0x38])] }
      (fun s => { s with p := 0x01, pc := 0x0011 }) = true := by decide

/-- V-FL-03: CLI. -/
theorem test_V_FL_03 :
    stepsTo { zero with p := 0x04, pc := 0x0010, mem := bytes [(0x0010, [0x58])] }
      (fun s => { s with p := 0x00, pc := 0x0011 }) = true := by decide

/-- V-FL-04: SEI. -/
theorem test_V_FL_04 :
    stepsTo { zero with pc := 0x0010, mem := bytes [(0x0010, [0x78])] }
      (fun s => { s with p := 0x04, pc := 0x0011 }) = true := by decide

/-- V-FL-05: CLD. -/
theorem test_V_FL_05 :
    stepsTo { zero with p := 0x08, pc := 0x0010, mem := bytes [(0x0010, [0xD8])] }
      (fun s => { s with p := 0x00, pc := 0x0011 }) = true := by decide

/-- V-FL-06: SED. -/
theorem test_V_FL_06 :
    stepsTo { zero with pc := 0x0010, mem := bytes [(0x0010, [0xF8])] }
      (fun s => { s with p := 0x08, pc := 0x0011 }) = true := by decide

/-- V-FL-07: CLV. -/
theorem test_V_FL_07 :
    stepsTo { zero with p := 0x40, pc := 0x0010, mem := bytes [(0x0010, [0xB8])] }
      (fun s => { s with p := 0x00, pc := 0x0011 }) = true := by decide

/-- V-FL-08: NOP. -/
theorem test_V_FL_08 :
    stepsTo { zero with p := 0xC3, pc := 0x0010, mem := bytes [(0x0010, [0xEA])] }
      (fun s => { s with pc := 0x0011 }) = true := by decide

/-! ### Load and runs (vectors V-LD, V-MS) -/

/-- The image of the source's scenario. -/
def loadFive : List Byte := [0xA9, 0x05, 0x00]

/-- The state right after loading it with MEM_SIZE = 3. -/
def loadedFive : State := { zero with cfg := small 3, mem := [(0, 0xA9), (1, 0x05)] }

/-- V-LD-02: MEM_SIZE = len(image). -/
theorem test_V_LD_02 : load (small 3) (fun _ => 0) loadFive = .ok loadedFive := by decide

/-- V-LD-03: FILL(a) = a. -/
theorem test_V_LD_03 :
    load (small 0x10) (fun a => BitVec.ofNat 8 a) [] =
      .ok { zero with cfg := small 0x10, mem := bytes [(1, [1, 2, 3, 4, 5, 6, 7, 8, 9, 10, 11, 12, 13, 14, 15])] } := by decide

/-- V-MS-01: no step fetches nothing. -/
theorem test_V_MS_01 :
    multipleSteps 0 { zero with cfg := small 1, mem := bytes [(0, [0x02])] } =
      .ok { zero with cfg := small 1, mem := bytes [(0, [0x02])] } := by decide

/-- V-MS-02: BRK at 0002 pushes to 0100. -/
theorem test_V_MS_02 :
    multipleSteps 2 loadedFive =
      .failed 1 (.fault (.outOfBounds 0x0100)) { loadedFive with a := 0x05, pc := 0x0002 } := by decide

/-- V-MS-03: the source's scenario. -/
theorem test_V_MS_03 : multipleSteps 1 loadedFive = .ok { loadedFive with a := 0x05, pc := 0x0002 } := by decide

/-- V-MS-04: the run stops at the first failure. -/
theorem test_V_MS_04 :
    multipleSteps 5 { zero with cfg := small 2, mem := bytes [(0, [0x02, 0x05])] } =
      .failed 0 (.fault (.undefinedOpcode 0x02)) { zero with cfg := small 2, mem := bytes [(0, [0x02, 0x05])] } := by decide

/-! ### Witnesses: for each obligation with hypotheses, states and operands that meet them, and what happens there -/

/-! #### Load, reset and the invariant -/

/-- An image of exactly MEM_SIZE bytes fits. -/
theorem witness_LoadBuildsResetState_fits :
    loadFive.length ≤ (small 3).memSize ∧ load (small 3) (fun _ => 0) loadFive = .ok loadedFive ∧
      loadFive[2]? = some 0x00 ∧ memRead loadedFive 2 = .ok 0x00 ∧ memRead loadedFive 3 = .error (.outOfBounds 3) := by
  decide

/-- FILL from the image's end to MEM_SIZE - 1. -/
theorem witness_LoadBuildsResetState_fill :
    load (small 4) (fun a => BitVec.ofNat 8 (16 * a)) [0xEA] =
      .ok { zero with cfg := small 4, mem := [(0, 0xEA), (1, 0x10), (2, 0x20), (3, 0x30)] } ∧
    memRead { zero with cfg := small 4, mem := [(0, 0xEA), (1, 0x10), (2, 0x20), (3, 0x30)] } 1 = .ok 0x10 ∧
    memRead { zero with cfg := small 4, mem := [(0, 0xEA), (1, 0x10), (2, 0x20), (3, 0x30)] } 3 = .ok 0x30 := by
  decide

/-- One byte more than MEM_SIZE is refused. -/
theorem witness_LoadBuildsResetState_too_long :
    (small 2).memSize < loadFive.length ∧ load (small 2) (fun _ => 0) loadFive = .loadRefused := by decide

theorem witness_LoadMeetsInvariant : (small 3).wf = true ∧ load (small 3) (fun _ => 0) loadFive = .ok loadedFive := by decide

/-- A PHA about to run. -/
def phaReady : State := { zero with a := 0x42, p := 0xC3, sp := 0x01, pc := 0x0200, mem := [(0x0200, 0x48)] }

theorem witness_StepKeepsInvariant :
    phaReady.Inv ∧ step phaReady =
      .next { phaReady with sp := 0x00, pc := 0x0201, mem := [(0x0101, 0x42), (0x0200, 0x48)] } :=
  ⟨⟨by decide, by decide, by decide, by decide, by decide⟩, rfl⟩

theorem witness_ReachableStatusBitsReadZero_completed :
    (small 3).wf = true ∧ load (small 3) (fun _ => 0) loadFive = .ok loadedFive ∧
      multipleSteps 1 loadedFive = .ok { loadedFive with a := 0x05, pc := 0x0002 } := by decide

theorem witness_ReachableStatusBitsReadZero_failed :
    (small 3).wf = true ∧ load (small 3) (fun _ => 0) loadFive = .ok loadedFive ∧
      ∃ k e, multipleSteps 2 loadedFive = .failed k e { loadedFive with a := 0x05, pc := 0x0002 } :=
  ⟨by decide, by decide, 1, .fault (.outOfBounds 0x0100), by decide⟩

/-! #### Decoding -/

/-- The pad byte may be missing. -/
theorem witness_DecodedBytesBeginWithEncoding :
    decode .two [0xA9, 0x05] = .ok (.ldaImmediate 0x05, []) ∧
      (Instr.ldaImmediate 0x05).bytes <+: [0xA9, 0x05] ∧ [] = List.drop ((Instr.ldaImmediate 0x05).length .two) [0xA9#8, 0x05#8] := by
  decide

/-- The lowest and the highest undefined opcode. -/
theorem witness_EncodingLengths_undefined :
    0x02 ∈ undefinedOpcodes ∧ 0xFF ∈ undefinedOpcodes ∧ opcodeLength .one 0x02 = none ∧ opcodeLength .two 0xFF = none := by decide

theorem witness_UndefinedOpcodesFault :
    0x02 ∈ undefinedOpcodes ∧ decode .two [0x02] = .error (.undefinedOpcode 0x02) ∧
    memRead { zero with pc := 0xFFFF, mem := bytes [(0xFFFF, [0x02])] } 0xFFFF = .ok 0x02 ∧
    faultsWith (step { zero with pc := 0xFFFF, mem := bytes [(0xFFFF, [0x02])] }) (.undefinedOpcode 0x02) = true := by decide

theorem witness_OpcodeMapMatchesMnemonicTable :
    decodeOpcode 0x6A = some (.accumulator, .ror) ∧ Mode.accumulator ∈ legalModes .ror := by decide

/-! #### Memory -/

theorem witness_ByteReadChecksBounds :
    memRead { zero with cfg := small 0x10, mem := [(0x0F, 0x77)] } 0x0F = .ok 0x77 ∧
    memRead { zero with cfg := small 0x10 } 0x10 = .error (.outOfBounds 0x10) ∧ memRead zero 0x10000 = .error (.outOfBounds 0x10000) := by
  decide

/-- The last word, the word of which only the high byte is out of range, and the word of which both are. -/
theorem witness_WordReadIsLittleEndian :
    memReadWord { zero with mem := bytes [(0xFFFE, [0x34, 0x12])] } 0xFFFE = .ok 0x1234 ∧
    memReadWord { zero with mem := bytes [(0xFFFE, [0x34, 0x12])] } 0xFFFF = .error (.outOfBounds 0x10000) ∧
    memReadWord { zero with mem := bytes [(0xFFFE, [0x34, 0x12])] } 0x10000 = .error (.outOfBounds 0x10000) := by decide

theorem witness_ByteWriteChangesOneByte :
    Memory.wf [(0x0E, 1)] = true ∧
    memWrite { zero with cfg := small 0x10, mem := [(0x0E, 1)] } 0x0F 0x77 =
      .ok { zero with cfg := small 0x10, mem := [(0x0E, 1), (0x0F, 0x77)] } ∧
    memWrite { zero with cfg := small 0x10, mem := [(0x0E, 1)] } 0x10 0x77 = .error (.outOfBounds 0x10) := by decide

/-! #### Step and fetch -/

/-- Operand bytes that wrap to address 0, with the pad byte out of memory: JMP at 0xFFFF and LDA at MEM_SIZE - 2. -/
theorem witness_StepRunsDecodedInstruction :
    decode .one [0x4C, 0x34, 0x12] = .ok (.jmpAbsolute 0x1234, []) ∧ (Instr.jmpAbsolute 0x1234).wf = true ∧
    fetch { zero with pc := 0xFFFF, mem := bytes [(0, [0x34, 0x12]), (0xFFFF, [0x4C])] } = .ok (.jmpAbsolute 0x1234) ∧
    decode .two [0xA9, 0x05] = .ok (.ldaImmediate 0x05, []) ∧
    stepsTo { zero with cfg := { wide with memSize := 2 }, mem := bytes [(0, [0xA9, 0x05])] }
      (fun s => { s with a := 0x05, pc := 0x0003 }) = true := by decide

/-- The three bytes of an instruction at PC, in the form of the statement's hypotheses. -/
theorem witness_StepRunsDecodedInstruction_bytes :
    (∀ b, [0x4C#8, 0x34#8, 0x12#8][0]? = some b →
      memRead { zero with pc := 0xFFFF, mem := bytes [(0, [0x34, 0x12]), (0xFFFF, [0x4C])] } 0xFFFF = .ok b) ∧
    (∀ b, [0x4C#8, 0x34#8, 0x12#8][1]? = some b →
      memRead { zero with pc := 0xFFFF, mem := bytes [(0, [0x34, 0x12]), (0xFFFF, [0x4C])] } 0 = .ok b) ∧
    (∀ b, [0x4C#8, 0x34#8, 0x12#8][2]? = some b →
      memRead { zero with pc := 0xFFFF, mem := bytes [(0, [0x34, 0x12]), (0xFFFF, [0x4C])] } 1 = .ok b) := by
  refine ⟨?_, ?_, ?_⟩ <;> (intro b h; cases h; decide)

/-- The opcode, the operand byte, the operand word's low byte and its high byte, each just out of range. -/
theorem witness_FetchFaults :
    faultsWith (step { zero with cfg := small 0x10, pc := 0x0010 }) (.outOfBounds 0x10) = true ∧
    memRead { zero with cfg := small 0x10, pc := 0x000F, mem := [(0x0F, 0xA5)] } 0x0F = .ok 0xA5 ∧
    decodeOpcode 0xA5 = some (.zeroPage, .lda) ∧
    faultsWith (step { zero with cfg := small 0x10, pc := 0x000F, mem := [(0x0F, 0xA5)] }) (.outOfBounds 0x10) = true ∧
    decodeOpcode 0xAD = some (.absolute, .lda) ∧
    faultsWith (step { zero with cfg := small 0x10, pc := 0x000F, mem := [(0x0F, 0xAD)] }) (.outOfBounds 0x10) = true ∧
    faultsWith (step { zero with cfg := small 0x10, pc := 0x000E, mem := [(0x0E, 0xAD)] }) (.outOfBounds 0x10) = true ∧
    faultsWith (step { zero with pc := 0xFFFE, mem := bytes [(0xFFFE, [0xAD, 0x34])] }) (.outOfBounds 0x10000) = true := by decide

/-! #### The resolver -/

theorem witness_RegisterModesResolve :
    zero.cfg.immWidth = .one ∧ pcSeq { zero with pc := 0xFFFE } (.immediate 0x7F) = 0x0000 ∧
    wide.immWidth = .two ∧ pcSeq { zero with cfg := wide, pc := 0xFFFE } (.immediate 0x7F) = 0x0001 ∧
    fetch { zero with pc := 0xFFFF, mem := bytes [(0, [0x7F]), (0xFFFF, [0xA9])] } = .ok (.ldaImmediate 0x7F) ∧
    (Instr.ldaImmediate 0x7F).operand = .immediate 0x7F := by decide

/-- The sums wrap at 0xFF, and an address at MEM_SIZE faults. -/
theorem witness_ZeroPageModesResolve :
    resolveMem { zero with x := 0x01, mem := [(0, 0x44), (0x100, 0x55)] } (.zeroPageX 0xFF) = .ok { ea := 0, value := 0x44 } ∧
    resolveMem { zero with y := 0x01, mem := [(0, 0x44), (0x100, 0x55)] } (.zeroPageY 0xFF) = .ok { ea := 0, value := 0x44 } ∧
    resolveMem { zero with cfg := small 0x80 } (.zeroPage 0x80) = .error (.outOfBounds 0x80) ∧
    resolveMem { zero with cfg := small 0x80 } (.zeroPage 0x7F) = .ok { ea := 0x7F, value := 0 } ∧
    fetch { zero with pc := 0x0200, mem := bytes [(0x0200, [0xB6, 0xFF])] } = .ok (.ldxZeroPageY 0xFF) ∧
    (Instr.ldxZeroPageY 0xFF).operand = .mem (.zeroPageY 0xFF) := by decide

/-- The sums do not wrap at 0xFFFF. -/
theorem witness_AbsoluteModesResolve :
    resolveMem { zero with mem := [(0xFFFF, 0x44)] } (.absolute 0xFFFF) = .ok { ea := 0xFFFF, value := 0x44 } ∧
    resolveMem { zero with x := 0x01 } (.absoluteX 0xFFFF) = .error (.outOfBounds 0x10000) ∧
    resolveMem { zero with y := 0xFF } (.absoluteY 0xFFFF) = .error (.outOfBounds 0x100FE) ∧
    resolveMem { zero with x := 0x01, mem := [(0x1300, 0x66)] } (.absoluteX 0x12FF) = .ok { ea := 0x1300, value := 0x66 } ∧
    fetch { zero with pc := 0x0200, mem := bytes [(0x0200, [0xB9, 0x34, 0x12])] } = .ok (.ldaAbsoluteY 0x1234) ∧
    (Instr.ldaAbsoluteY 0x1234).operand = .mem (.absoluteY 0x1234) := by decide

/-- Indirect: a pointer at a page's end, and one whose high byte is out of range. -/
theorem witness_PointerModesResolve_indirect :
    memReadWord { zero with mem := bytes [(0x12FF, [0x34, 0x12])] } 0x12FF = .ok 0x1234 ∧
    resolveMem { zero with mem := bytes [(0x12FF, [0x34, 0x12])] } (.indirect 0x12FF) = .ok { ea := 0x1234, value := 0 } ∧
    memReadWord zero 0xFFFF = .error (.outOfBounds 0x10000) ∧
    resolveMem zero (.indirect 0xFFFF) = .error (.outOfBounds 0x10000) ∧
    fetch { zero with pc := 0x0200, mem := bytes [(0x0200, [0x6C, 0xFF, 0x12])] } = .ok (.jmpIndirect 0x12FF) := by decide

/-- IndirectX: the pointer's address wraps, its two bytes at 0xFF and 0x100 do not. -/
theorem witness_PointerModesResolve_indirectX :
    memReadWord { zero with x := 0xF0, mem := bytes [(0, [0x34, 0x12])] } ((0x10 + 0xF0) % 256) = .ok 0x1234 ∧
    resolveMem { zero with x := 0xF0, mem := bytes [(0, [0x34, 0x12])] } (.indirectX 0x10) = .ok { ea := 0x1234, value := 0 } ∧
    resolveMem { zero with mem := bytes [(0xFF, [0x34, 0x12])] } (.indirectX 0xFF) = .ok { ea := 0x1234, value := 0 } ∧
    memReadWord { zero with cfg := small 0x100 } ((0xFF + 0) % 256) = .error (.outOfBounds 0x100) ∧
    resolveMem { zero with cfg := small 0x100 } (.indirectX 0xFF) = .error (.outOfBounds 0x100) := by decide

/-- IndirectY: Y or X added by INDY_INDEX, without a wrap. -/
theorem witness_PointerModesResolve_indirectY :
    zero.cfg.indyIndex = .y ∧ byX.indyIndex = .x ∧
    memReadWord { zero with mem := bytes [(0x40, [0x00, 0x20])] } 0x40 = .ok 0x2000 ∧
    resolveMem { zero with x := 0x05, y := 0x10, mem := bytes [(0x40, [0x00, 0x20])] } (.indirectY 0x40) =
      .ok { ea := 0x2010, value := 0 } ∧
    resolveMem { zero with cfg := byX, x := 0x05, y := 0x10, mem := bytes [(0x40, [0x00, 0x20])] } (.indirectY 0x40) =
      .ok { ea := 0x2005, value := 0 } ∧
    resolveMem { zero with y := 0x01, mem := bytes [(0x40, [0xFF, 0xFF])] } (.indirectY 0x40) = .error (.outOfBounds 0x10000) ∧
    resolveMem { zero with cfg := small 0x100 } (.indirectY 0xFF) = .error (.outOfBounds 0x100) ∧
    fetch { zero with pc := 0x0200, mem := bytes [(0x0200, [0xB1, 0x40])] } = .ok (.ldaIndirectY 0x40) := by decide

/-- A pointer fault and a value fault, for a store, a jump and a call. -/
theorem witness_ResolverFaultStopsEveryOperation :
    (Instr.staIndirectY 0xFF).operand = .mem (.indirectY 0xFF) ∧
    resolveMem { zero with cfg := small 0x100 } (.indirectY 0xFF) = .error (.outOfBounds 0x100) ∧
    faultsWith (exec (.staIndirectY 0xFF) { zero with cfg := small 0x100 }) (.outOfBounds 0x100) = true ∧
    faultsWith (exec (.jmpAbsolute 0x0300) { zero with cfg := small 0x300 }) (.outOfBounds 0x300) = true ∧
    faultsWith (exec (.jsr 0x0300) { zero with cfg := small 0x300 }) (.outOfBounds 0x300) = true := by decide

/-! #### Loads, stores, transfers -/

theorem witness_LoadsWriteRegisterAndNZ :
    operandValue zero (.immediate 0x80) = .ok 0x80 ∧
    goesTo (exec (.ldaImmediate 0x80) { zero with p := 0x43 }) { zero with a := 0x80, p := 0xC1, pc := 0x0002 } = true ∧
    goesTo (exec (.ldxImmediate 0x00) { zero with p := 0x80, x := 1 }) { zero with p := 0x02, pc := 0x0002 } = true ∧
    operandValue { zero with mem := [(0xFF, 0x11)] } (.mem (.zeroPage 0xFF)) = .ok 0x11 ∧
    goesTo (exec (.ldyZeroPage 0xFF) { zero with mem := [(0xFF, 0x11)] }) { zero with y := 0x11, pc := 0x0002, mem := [(0xFF, 0x11)] } =
      true := by decide

theorem witness_LoadsWriteRegisterAndNZ_fault :
    operandValue { zero with cfg := small 0x300 } (.mem (.absolute 0x0300)) = .error (.outOfBounds 0x300) ∧
    faultsWith (exec (.ldaAbsolute 0x0300) { zero with cfg := small 0x300 }) (.outOfBounds 0x300) = true ∧
    faultsWith (exec (.ldxAbsolute 0x0300) { zero with cfg := small 0x300 }) (.outOfBounds 0x300) = true ∧
    faultsWith (exec (.ldyAbsolute 0x0300) { zero with cfg := small 0x300 }) (.outOfBounds 0x300) = true := by decide

theorem witness_StoresWriteOneByte :
    resolveMem { zero with a := 0x11, x := 0x22, y := 0x33 } (.absolute 0xFFFF) = .ok { ea := 0xFFFF, value := 0 } ∧
    Memory.wf zero.mem = true ∧
    goesTo (exec (.staAbsolute 0xFFFF) { zero with a := 0x11 }) { zero with a := 0x11, pc := 0x0003, mem := [(0xFFFF, 0x11)] } = true ∧
    goesTo (exec (.stxAbsolute 0xFFFF) { zero with x := 0x22 }) { zero with x := 0x22, pc := 0x0003, mem := [(0xFFFF, 0x22)] } = true ∧
    goesTo (exec (.styAbsolute 0xFFFF) { zero with y := 0x33 }) { zero with y := 0x33, pc := 0x0003, mem := [(0xFFFF, 0x33)] } = true := by
  decide

theorem witness_StoresWriteOneByte_fault :
    resolveMem { zero with cfg := small 0x80 } (.zeroPage 0x80) = .error (.outOfBounds 0x80) ∧
    faultsWith (exec (.staZeroPage 0x80) { zero with cfg := small 0x80 }) (.outOfBounds 0x80) = true ∧
    faultsWith (exec (.stxZeroPage 0x80) { zero with cfg := small 0x80 }) (.outOfBounds 0x80) = true ∧
    faultsWith (exec (.styZeroPage 0x80) { zero with cfg := small 0x80 }) (.outOfBounds 0x80) = true := by decide

/-! #### Arithmetic -/

theorem witness_AdcAddsWithCarry :
    operandValue { zero with a := 0x7F, p := 0x01 } (.immediate 0x00) = .ok 0x00 ∧
    goesTo (exec (.adcImmediate 0x00) { zero with a := 0x7F, p := 0x01 }) { zero with a := 0x80, p := 0xC0, pc := 0x0002 } = true ∧
    goesTo (exec (.adcImmediate 0x01) { zero with cfg := noDecimal, a := 0xFF }) { zero with cfg := noDecimal, p := 0x03, pc := 0x0002 } =
      true ∧
    goesTo (exec (.adcImmediate 0x01) { zero with a := 0x09, p := 0x08 }) { zero with a := 0x0A, p := 0x08, pc := 0x0002 } = true := by decide

/-- The refusal, and the resolver's fault before it. -/
theorem witness_AdcAddsWithCarry_stops :
    noDecimal.decimalMode = .refuse ∧ getFlag 0x08 .d = true ∧
    refusesDecimal (exec (.adcImmediate 0x01) { zero with cfg := noDecimal, p := 0x08 }) = true ∧
    operandValue { zero with cfg := { noDecimal with memSize := 0x80 }, p := 0x08 } (.mem (.zeroPage 0x80)) = .error (.outOfBounds 0x80) ∧
    faultsWith (exec (.adcZeroPage 0x80) { zero with cfg := { noDecimal with memSize := 0x80 }, p := 0x08 }) (.outOfBounds 0x80) = true := by
  decide

theorem witness_SbcSubtractsWithBorrow :
    operandValue { zero with a := 0x80, p := 0x01 } (.immediate 0x01) = .ok 0x01 ∧
    goesTo (exec (.sbcImmediate 0x01) { zero with a := 0x80, p := 0x01 }) { zero with a := 0x7F, p := 0x41, pc := 0x0002 } = true ∧
    goesTo (exec (.sbcImmediate 0x00) zero) { zero with a := 0xFF, p := 0x80, pc := 0x0002 } = true ∧
    goesTo (exec (.sbcImmediate 0x05) { zero with cfg := noDecimal, a := 0x05, p := 0x01 })
      { zero with cfg := noDecimal, a := 0x00, p := 0x03, pc := 0x0002 } = true := by decide

theorem witness_SbcSubtractsWithBorrow_stops :
    noDecimal.decimalMode = .refuse ∧ getFlag 0x08 .d = true ∧
    refusesDecimal (exec (.sbcImmediate 0x01) { zero with cfg := noDecimal, p := 0x08 }) = true ∧
    operandValue { zero with cfg := { noDecimal with memSize := 0x80 }, p := 0x08 } (.mem (.zeroPage 0x80)) = .error (.outOfBounds 0x80) ∧
    faultsWith (exec (.sbcZeroPage 0x80) { zero with cfg := { noDecimal with memSize := 0x80 }, p := 0x08 }) (.outOfBounds 0x80) = true := by
  decide

/-- A register equal to the operand, one below it, and one above it with bit 7 of the difference set. -/
theorem witness_ComparesSetFlagsOnly :
    (Instr.cmpImmediate 0x10).operation = .cmp ∧ operandValue { zero with a := 0x10 } (.immediate 0x10) = .ok 0x10 ∧
    goesTo (exec (.cmpImmediate 0x10) { zero with a := 0x10, p := 0x48 }) { zero with a := 0x10, p := 0x4B, pc := 0x0002 } = true ∧
    goesTo (exec (.cpxImmediate 0x01) { zero with p := 0x01 }) { zero with p := 0x80, pc := 0x0002 } = true ∧
    goesTo (exec (.cpyImmediate 0x00) { zero with y := 0xFF }) { zero with y := 0xFF, p := 0x81, pc := 0x0002 } = true := by decide

theorem witness_ComparesSetFlagsOnly_fault :
    operandValue { zero with cfg := small 0x80 } (.mem (.zeroPage 0x80)) = .error (.outOfBounds 0x80) ∧
    faultsWith (exec (.cmpZeroPage 0x80) { zero with cfg := small 0x80 }) (.outOfBounds 0x80) = true ∧
    faultsWith (exec (.cpxZeroPage 0x80) { zero with cfg := small 0x80 }) (.outOfBounds 0x80) = true ∧
    faultsWith (exec (.cpyZeroPage 0x80) { zero with cfg := small 0x80 }) (.outOfBounds 0x80) = true := by decide

theorem witness_IncDecMemory :
    (Instr.incZeroPage 0xFF).operand = .mem (.zeroPage 0xFF) ∧ Memory.wf [(0xFF, 0xFF)] = true ∧
    resolveMem { zero with mem := [(0xFF, 0xFF)] } (.zeroPage 0xFF) = .ok { ea := 0xFF, value := 0xFF } ∧
    goesTo (exec (.incZeroPage 0xFF) { zero with p := 0x41, mem := [(0xFF, 0xFF)] }) { zero with p := 0x43, pc := 0x0002 } = true ∧
    goesTo (exec (.decZeroPage 0xFF) { zero with p := 0x41 }) { zero with p := 0xC1, pc := 0x0002, mem := [(0xFF, 0xFF)] } = true := by decide

theorem witness_IncDecMemory_fault :
    resolveMem { zero with cfg := small 0x80 } (.zeroPage 0x80) = .error (.outOfBounds 0x80) ∧
    faultsWith (exec (.incZeroPage 0x80) { zero with cfg := small 0x80 }) (.outOfBounds 0x80) = true ∧
    faultsWith (exec (.decZeroPage 0x80) { zero with cfg := small 0x80 }) (.outOfBounds 0x80) = true := by decide

/-! #### Logical operations, shifts, branches -/

theorem witness_LogicalOpsCombineWithA :
    operandValue { zero with a := 0xF0 } (.immediate 0x88) = .ok 0x88 ∧
    goesTo (exec (.andImmediate 0x88) { zero with a := 0xF0 }) { zero with a := 0x80, p := 0x80, pc := 0x0002 } = true ∧
    goesTo (exec (.oraImmediate 0x08) { zero with a := 0x70 }) { zero with a := 0x78, p := 0x00, pc := 0x0002 } = true ∧
    goesTo (exec (.eorImmediate 0xF0) { zero with a := 0xF0 }) { zero with a := 0x00, p := 0x02, pc := 0x0002 } = true := by decide

theorem witness_LogicalOpsCombineWithA_fault :
    operandValue { zero with cfg := small 0x80 } (.mem (.zeroPage 0x80)) = .error (.outOfBounds 0x80) ∧
    faultsWith (exec (.andZeroPage 0x80) { zero with cfg := small 0x80 }) (.outOfBounds 0x80) = true ∧
    faultsWith (exec (.oraZeroPage 0x80) { zero with cfg := small 0x80 }) (.outOfBounds 0x80) = true ∧
    faultsWith (exec (.eorZeroPage 0x80) { zero with cfg := small 0x80 }) (.outOfBounds 0x80) = true := by decide

theorem witness_BitTestsOperand :
    operandValue { zero with a := 0x3F, mem := [(0x40, 0xC0)] } (.mem (.zeroPage 0x40)) = .ok 0xC0 ∧
    goesTo (exec (.bitZeroPage 0x40) { zero with a := 0x3F, mem := [(0x40, 0xC0)] })
      { zero with a := 0x3F, p := 0xC2, pc := 0x0002, mem := [(0x40, 0xC0)] } = true ∧
    operandValue { zero with cfg := small 0x80 } (.mem (.zeroPage 0x80)) = .error (.outOfBounds 0x80) ∧
    faultsWith (exec (.bitZeroPage 0x80) { zero with cfg := small 0x80 }) (.outOfBounds 0x80) = true := by decide

theorem witness_ShiftsRotateThroughCarry_accumulator :
    Instr.aslAccumulator.operand = .accumulator ∧
    goesTo (exec .aslAccumulator { zero with a := 0x80, p := 0x01 }) { zero with a := 0x00, p := 0x03, pc := 0x0001 } = true ∧
    goesTo (exec .lsrAccumulator { zero with a := 0x01, p := 0x01 }) { zero with a := 0x00, p := 0x03, pc := 0x0001 } = true ∧
    goesTo (exec .rolAccumulator { zero with a := 0x40, p := 0x01 }) { zero with a := 0x81, p := 0x80, pc := 0x0001 } = true ∧
    goesTo (exec .rorAccumulator { zero with a := 0x00, p := 0x01 }) { zero with a := 0x80, p := 0x80, pc := 0x0001 } = true := by decide

theorem witness_ShiftsRotateThroughCarry_memory :
    resolveMem { zero with mem := [(0xFF, 0x81)] } (.zeroPage 0xFF) = .ok { ea := 0xFF, value := 0x81 } ∧ Memory.wf [(0xFF, 0x81)] = true ∧
    goesTo (exec (.aslZeroPage 0xFF) { zero with mem := [(0xFF, 0x81)] }) { zero with p := 0x01, pc := 0x0002, mem := [(0xFF, 0x02)] } = true ∧
    goesTo (exec (.lsrZeroPage 0xFF) { zero with mem := [(0xFF, 0x81)] }) { zero with p := 0x01, pc := 0x0002, mem := [(0xFF, 0x40)] } = true ∧
    goesTo (exec (.rolZeroPage 0xFF) { zero with mem := [(0xFF, 0x81)] }) { zero with p := 0x01, pc := 0x0002, mem := [(0xFF, 0x02)] } = true ∧
    goesTo (exec (.rorZeroPage 0xFF) { zero with mem := [(0xFF, 0x81)] }) { zero with p := 0x01, pc := 0x0002, mem := [(0xFF, 0x40)] } = true := by
  decide

theorem witness_ShiftsRotateThroughCarry_fault :
    resolveMem { zero with cfg := small 0x80 } (.zeroPage 0x80) = .error (.outOfBounds 0x80) ∧
    faultsWith (exec (.aslZeroPage 0x80) { zero with cfg := small 0x80 }) (.outOfBounds 0x80) = true ∧
    faultsWith (exec (.lsrZeroPage 0x80) { zero with cfg := small 0x80 }) (.outOfBounds 0x80) = true ∧
    faultsWith (exec (.rolZeroPage 0x80) { zero with cfg := small 0x80 }) (.outOfBounds 0x80) = true ∧
    faultsWith (exec (.rorZeroPage 0x80) { zero with cfg := small 0x80 }) (.outOfBounds 0x80) = true := by decide

/-- Every branch taken backwards past address 0, under IMM_WIDTH = 1. -/
theorem witness_BranchesAddSignedOffset_taken :
    goesTo (exec (.bpl 0x80) zero) { zero with pc := 0xFF82 } = true ∧
    goesTo (exec (.bmi 0x80) { zero with p := 0x80 }) { zero with p := 0x80, pc := 0xFF82 } = true ∧
    goesTo (exec (.bvc 0x80) zero) { zero with pc := 0xFF82 } = true ∧
    goesTo (exec (.bvs 0x80) { zero with p := 0x40 }) { zero with p := 0x40, pc := 0xFF82 } = true ∧
    goesTo (exec (.bcc 0x80) zero) { zero with pc := 0xFF82 } = true ∧
    goesTo (exec (.bcs 0x80) { zero with p := 0x01 }) { zero with p := 0x01, pc := 0xFF82 } = true ∧
    goesTo (exec (.bne 0x80) zero) { zero with pc := 0xFF82 } = true ∧
    goesTo (exec (.beq 0x80) { zero with p := 0x02 }) { zero with p := 0x02, pc := 0xFF82 } = true := by decide

/-- Every branch not taken, under IMM_WIDTH = 2. -/
theorem witness_BranchesAddSignedOffset_not_taken :
    wide.immWidth = .two ∧
    goesTo (exec (.bpl 0x7F) { zero with cfg := wide, p := 0x80 }) { zero with cfg := wide, p := 0x80, pc := 0x0003 } = true ∧
    goesTo (exec (.bmi 0x7F) { zero with cfg := wide }) { zero with cfg := wide, pc := 0x0003 } = true ∧
    goesTo (exec (.bvc 0x7F) { zero with cfg := wide, p := 0x40 }) { zero with cfg := wide, p := 0x40, pc := 0x0003 } = true ∧
    goesTo (exec (.bvs 0x7F) { zero with cfg := wide }) { zero with cfg := wide, pc := 0x0003 } = true ∧
    goesTo (exec (.bcc 0x7F) { zero with cfg := wide, p := 0x01 }) { zero with cfg := wide, p := 0x01, pc := 0x0003 } = true ∧
    goesTo (exec (.bcs 0x7F) { zero with cfg := wide }) { zero with cfg := wide, pc := 0x0003 } = true ∧
    goesTo (exec (.bne 0x7F) { zero with cfg := wide, p := 0x02 }) { zero with cfg := wide, p := 0x02, pc := 0x0003 } = true ∧
    goesTo (exec (.beq 0x7F) { zero with cfg := wide }) { zero with cfg := wide, pc := 0x0003 } = true := by decide

/-! #### Jumps, the stack, BRK -/

theorem witness_JmpSetsPcToEffectiveAddress :
    (Instr.jmpAbsolute 0xFFFF).operand = .mem (.absolute 0xFFFF) ∧ resolveMem zero (.absolute 0xFFFF) = .ok { ea := 0xFFFF, value := 0 } ∧
    goesTo (exec (.jmpAbsolute 0xFFFF) zero) { zero with pc := 0xFFFF } = true ∧
    goesTo (exec (.jmpIndirect 0xFFFE) { zero with mem := bytes [(0xFFFE, [0x34, 0x12])] })
      { zero with pc := 0x1234, mem := bytes [(0xFFFE, [0x34, 0x12])] } = true ∧
    resolveMem zero (.indirect 0xFFFF) = .error (.outOfBounds 0x10000) ∧
    faultsWith (exec (.jmpIndirect 0xFFFF) zero) (.outOfBounds 0x10000) = true := by decide

/-- SP = 0x00 wraps: the low byte of the return address goes to 0x01FF. -/
theorem witness_JsrPushesReturnAddress :
    resolveMem { zero with pc := 0x12FE } (.absolute 0x4000) = .ok { ea := 0x4000, value := 0 } ∧
    firstOut 65536 [0x100 + (0x00#8).toNat, 0x100 + (0x00#8 - 1).toNat] = none ∧
    goesTo (exec (.jsr 0x4000) { zero with pc := 0x12FE })
      { zero with sp := 0xFE, pc := 0x4000, mem := [(0x0100, 0x13)] } = true := by decide

/-- Each stack byte just out of memory, and the target. -/
theorem witness_JsrPushesReturnAddress_fault :
    firstOut 0x100 [0x100 + (0x00#8).toNat, 0x100 + (0x00#8 - 1).toNat] = some 0x100 ∧
    faultsWith (exec (.jsr 0x0040) { zero with cfg := small 0x100 }) (.outOfBounds 0x100) = true ∧
    firstOut 0x1FF [0x100 + (0x00#8).toNat, 0x100 + (0x00#8 - 1).toNat] = some 0x1FF ∧
    faultsWith (exec (.jsr 0x0040) { zero with cfg := small 0x1FF }) (.outOfBounds 0x1FF) = true ∧
    resolveMem { zero with cfg := small 0x40 } (.absolute 0x0040) = .error (.outOfBounds 0x40) ∧
    faultsWith (exec (.jsr 0x0040) { zero with cfg := small 0x40 }) (.outOfBounds 0x40) = true := by decide

/-- SP = 0xFE: the low byte is at 0x01FF, the high byte at 0x0100. -/
theorem witness_RtsPullsReturnAddress :
    firstOut 0x200 [0x100 + (0xFE#8 + 1).toNat, 0x100 + (0xFE#8 + 2).toNat] = none ∧
    goesTo (exec .rts { zero with cfg := small 0x200, sp := 0xFE, mem := [(0x0100, 0x12), (0x01FF, 0xFF)] })
      { zero with cfg := small 0x200, sp := 0x00, pc := 0x1300, mem := [(0x0100, 0x12), (0x01FF, 0xFF)] } = true ∧
    firstOut 0x101 [0x100 + (0x00#8 + 1).toNat, 0x100 + (0x00#8 + 2).toNat] = some 0x101 ∧
    faultsWith (exec .rts { zero with cfg := small 0x101 }) (.outOfBounds 0x101) = true ∧
    firstOut 0x102 [0x100 + (0x00#8 + 1).toNat, 0x100 + (0x00#8 + 2).toNat] = some 0x102 ∧
    faultsWith (exec .rts { zero with cfg := small 0x102 }) (.outOfBounds 0x102) = true := by decide

/-- SP = 0x01: the three pushes wrap from 0x0100 to 0x01FF. -/
theorem witness_BrkEntersHandler :
    firstOut 65536 [0x100 + (0x01#8).toNat, 0x100 + (0x01#8 - 1).toNat, 0x100 + (0x01#8 - 2).toNat, 0xFFFE, 0xFFFF] = none ∧
    goesTo (exec .brk { zero with p := 0xCB, sp := 0x01, pc := 0xFFFF, mem := bytes [(0xFFFE, [0x34, 0x12])] })
      { zero with p := 0xCF, sp := 0xFE, pc := 0x1234, mem := bytes [(0x0100, [0x01]), (0x01FF, [0xFB]), (0xFFFE, [0x34, 0x12])] } =
      true := by decide

/-- Each of the five accesses the first that is out of memory. -/
theorem witness_BrkEntersHandler_fault :
    faultsWith (exec .brk { zero with cfg := small 0x180, sp := 0x80 }) (.outOfBounds 0x180) = true ∧
    faultsWith (exec .brk { zero with cfg := small 0x180 }) (.outOfBounds 0x1FF) = true ∧
    faultsWith (exec .brk { zero with cfg := small 0x1FF, sp := 0x01 }) (.outOfBounds 0x1FF) = true ∧
    faultsWith (exec .brk { zero with cfg := small 0xFFFE, sp := 0xFF }) (.outOfBounds 0xFFFE) = true ∧
    faultsWith (exec .brk { zero with cfg := small 0xFFFF, sp := 0xFF }) (.outOfBounds 0xFFFF) = true ∧
    firstOut 0xFFFF [0x100 + (0xFF#8).toNat, 0x100 + (0xFF#8 - 1).toNat, 0x100 + (0xFF#8 - 2).toNat, 0xFFFE, 0xFFFF] = some 0xFFFF := by
  decide

/-- SP = 0xFD: P is at 0x01FE, the low byte at 0x01FF, the high byte at 0x0100. -/
theorem witness_RtiRestoresStatusAndPc :
    firstOut 0x200 [0x100 + (0xFD#8 + 1).toNat, 0x100 + (0xFD#8 + 2).toNat, 0x100 + (0xFD#8 + 3).toNat] = none ∧
    goesTo (exec .rti { zero with cfg := small 0x200, sp := 0xFD, mem := bytes [(0x0100, [0x12]), (0x01FE, [0xFF, 0x34])] })
      { zero with cfg := small 0x200, p := 0xCF, sp := 0x00, pc := 0x1234, mem := bytes [(0x0100, [0x12]), (0x01FE, [0xFF, 0x34])] } = true ∧
    firstOut 0x101 [0x100 + (0x00#8 + 1).toNat, 0x100 + (0x00#8 + 2).toNat, 0x100 + (0x00#8 + 3).toNat] = some 0x101 ∧
    faultsWith (exec .rti { zero with cfg := small 0x101 }) (.outOfBounds 0x101) = true ∧
    faultsWith (exec .rti { zero with cfg := small 0x102 }) (.outOfBounds 0x102) = true ∧
    faultsWith (exec .rti { zero with cfg := small 0x103 }) (.outOfBounds 0x103) = true := by decide

/-- The last stack byte in memory and the first out of it. -/
theorem witness_PushAndPullPrimitives :
    Memory.wf zero.mem = true ∧
    push 0x42 { zero with cfg := small 0x101 } = .ok { zero with cfg := small 0x101, sp := 0xFF, mem := [(0x0100, 0x42)] } ∧
    push 0x42 { zero with cfg := small 0x100 } = .error (.outOfBounds 0x100) ∧
    pull { zero with cfg := small 0x101, sp := 0xFF, mem := [(0x0100, 0x42)] } =
      .ok (0x42, { zero with cfg := small 0x101, mem := [(0x0100, 0x42)] }) ∧
    pull { zero with cfg := small 0x100, sp := 0xFF } = .error (.outOfBounds 0x100) := by decide

theorem witness_PhaPhpPushOneByte :
    Memory.wf zero.mem = true ∧
    goesTo (exec .pha { zero with cfg := small 0x101, a := 0x42 })
      { zero with cfg := small 0x101, a := 0x42, sp := 0xFF, pc := 0x0001, mem := [(0x0100, 0x42)] } = true ∧
    goesTo (exec .php { zero with cfg := small 0x101, p := 0x81 })
      { zero with cfg := small 0x101, p := 0x81, sp := 0xFF, pc := 0x0001, mem := [(0x0100, 0xB1)] } = true ∧
    faultsWith (exec .pha { zero with cfg := small 0x100 }) (.outOfBounds 0x100) = true ∧
    faultsWith (exec .php { zero with cfg := small 0x100 }) (.outOfBounds 0x100) = true := by decide

theorem witness_PlaPlpPullOneByte :
    goesTo (exec .pla { zero with cfg := small 0x101, sp := 0xFF, mem := [(0x0100, 0x80)] })
      { zero with cfg := small 0x101, a := 0x80, p := 0x80, pc := 0x0001, mem := [(0x0100, 0x80)] } = true ∧
    goesTo (exec .plp { zero with cfg := small 0x101, sp := 0xFF, mem := [(0x0100, 0xFF)] })
      { zero with cfg := small 0x101, p := 0xCF, pc := 0x0001, mem := [(0x0100, 0xFF)] } = true ∧
    faultsWith (exec .pla { zero with cfg := small 0x100, sp := 0xFF }) (.outOfBounds 0x100) = true ∧
    faultsWith (exec .plp { zero with cfg := small 0x100, sp := 0xFF }) (.outOfBounds 0x100) = true := by decide

/-! #### Pairs of instructions -/

theorem witness_CallThenReturnResumesAfterCall :
    Memory.wf zero.mem = true ∧
    exec (.jsr 0x4000) { zero with sp := 0xFF, pc := 0x1234 } =
      .next { zero with sp := 0xFD, pc := 0x4000, mem := [(0x01FE, 0x36), (0x01FF, 0x12)] } ∧
    exec .rts { zero with sp := 0xFD, pc := 0x4000, mem := [(0x01FE, 0x36), (0x01FF, 0x12)] } =
      .next { zero with sp := 0xFF, pc := 0x1237, mem := [(0x01FE, 0x36), (0x01FF, 0x12)] } :=
  ⟨by decide, rfl, rfl⟩

theorem witness_BreakThenReturnSkipsPadding :
    Memory.wf zero.mem = true ∧ 0xC3#8 &&& 0x30 = 0 ∧
    exec .brk { zero with p := 0xC3, sp := 0xFF, pc := 0x1234 } =
      .next { zero with p := 0xC7, sp := 0xFC, pc := 0x0000, mem := [(0x01FD, 0xF3), (0x01FE, 0x36), (0x01FF, 0x12)] } ∧
    exec .rti { zero with p := 0xC7, sp := 0xFC, pc := 0x0000, mem := [(0x01FD, 0xF3), (0x01FE, 0x36), (0x01FF, 0x12)] } =
      .next { zero with p := 0xC3, sp := 0xFF, pc := 0x1236, mem := [(0x01FD, 0xF3), (0x01FE, 0x36), (0x01FF, 0x12)] } :=
  ⟨by decide, by decide, rfl, rfl⟩

theorem witness_PushThenPullRestores_status :
    Memory.wf zero.mem = true ∧ 0xC3#8 &&& 0x30 = 0 ∧
    exec .php { zero with p := 0xC3 } = .next { zero with p := 0xC3, sp := 0xFF, pc := 0x0001, mem := [(0x0100, 0xF3)] } ∧
    exec .plp { zero with p := 0xC3, sp := 0xFF, pc := 0x0001, mem := [(0x0100, 0xF3)] } =
      .next { zero with p := 0xC3, pc := 0x0002, mem := [(0x0100, 0xF3)] } :=
  ⟨by decide, by decide, rfl, rfl⟩

theorem witness_PushThenPullRestores_accumulator :
    exec .pha { zero with a := 0x80, p := 0x02 } =
      .next { zero with a := 0x80, p := 0x02, sp := 0xFF, pc := 0x0001, mem := [(0x0100, 0x80)] } ∧
    exec .pla { zero with a := 0x80, p := 0x02, sp := 0xFF, pc := 0x0001, mem := [(0x0100, 0x80)] } =
      .next { zero with a := 0x80, p := 0x80, pc := 0x0002, mem := [(0x0100, 0x80)] } :=
  ⟨rfl, rfl⟩

/-! #### Whole-machine statements -/

/-- An instruction that is no writer of A, X, Y or SP, and completes. -/
theorem witness_RegisterWriters :
    exec .nop { zero with a := 1, x := 2, y := 3, sp := 4 } = .next { zero with a := 1, x := 2, y := 3, sp := 4, pc := 0x0001 } ∧
    Instr.nop.operation ∉ [.lda, .adc, .sbc, .and, .ora, .eor, .txa, .tya, .pla] ∧ Instr.nop.operand ≠ .accumulator ∧
    Instr.nop.operation ∉ [.ldx, .inx, .dex, .tax, .tsx] ∧ Instr.nop.operation ∉ [.ldy, .iny, .dey, .tay] ∧
    Instr.nop.operation ∉ [.txs, .pha, .php, .pla, .plp, .jsr, .rts, .brk, .rti] :=
  ⟨rfl, by decide, by decide, by decide, by decide, by decide⟩

/-- A shift of memory is no writer of A. -/
theorem witness_RegisterWriters_shift_of_memory :
    exec (.aslZeroPage 0x40) { zero with a := 1, mem := [(0x40, 0x01)] } =
      .next { zero with a := 1, pc := 0x0002, mem := [(0x40, 0x02)] } ∧ (Instr.aslZeroPage 0x40).operand ≠ .accumulator :=
  ⟨rfl, by decide⟩

/-- A store is no writer of any flag. -/
theorem witness_FlagWriters :
    exec (.staZeroPage 0x40) { zero with a := 1, p := 0xFF } = .next { zero with a := 1, p := 0xFF, pc := 0x0002, mem := [(0x40, 0x01)] } ∧
    (Instr.staZeroPage 0x40).operation = .sta :=
  ⟨rfl, rfl⟩

/-- A load stores nothing; a shift of A stores nothing. -/
theorem witness_MemoryWriters_none :
    exec (.ldaImmediate 0x01) zero = .next { zero with a := 1, pc := 0x0002 } ∧
    exec .aslAccumulator { zero with a := 1 } = .next { zero with a := 2, pc := 0x0001 } :=
  ⟨rfl, rfl⟩

theorem witness_MemoryWriters_store :
    exec (.staZeroPage 0x40) { zero with a := 1 } = .next { zero with a := 1, pc := 0x0002, mem := [(0x40, 0x01)] } ∧
    resolveMem { zero with a := 1 } (.zeroPage 0x40) = .ok { ea := 0x40, value := 0 } ∧
    (Instr.staZeroPage 0x40).operation ∈ [.sta, .stx, .sty, .inc, .dec, .asl, .lsr, .rol, .ror] :=
  ⟨rfl, by decide, by decide⟩

/-- PHA and JSR write below where SP wraps; BRK is in its own witness. -/
theorem witness_MemoryWriters_stack :
    exec .pha { zero with a := 1 } = .next { zero with a := 1, sp := 0xFF, pc := 0x0001, mem := [(0x0100, 0x01)] } ∧
    exec (.jsr 0x4000) { zero with pc := 0x1234 } =
      .next { zero with sp := 0xFE, pc := 0x4000, mem := [(0x0100, 0x12), (0x01FF, 0x36)] } ∧
    exec .brk { zero with sp := 0x01, pc := 0x1234 } =
      .next { zero with p := 0x04, sp := 0xFE, pc := 0x0000, mem := [(0x0100, 0x36), (0x0101, 0x12), (0x01FF, 0x30)] } :=
  ⟨rfl, rfl, rfl⟩

theorem witness_SequentialPc :
    exec (.ldaAbsolute 0x1234) { zero with pc := 0xFFFE } = .next { zero with p := 0x02, pc := 0x0001 } ∧
    (Instr.ldaAbsolute 0x1234).operation ∉ [.bpl, .bmi, .bvc, .bvs, .bcc, .bcs, .bne, .beq, .jmp, .jsr, .rts, .rti, .brk] :=
  ⟨rfl, by decide⟩

theorem witness_ParametersNeverChange :
    step { zero with cfg := wide, mem := bytes [(0, [0xA9, 0x05])] } =
      .next { zero with cfg := wide, a := 5, pc := 0x0003, mem := bytes [(0, [0xA9, 0x05])] } ∧
    multipleSteps 1 { zero with cfg := wide, mem := bytes [(0, [0xA9, 0x05])] } =
      .ok { zero with cfg := wide, a := 5, pc := 0x0003, mem := bytes [(0, [0xA9, 0x05])] } :=
  ⟨rfl, rfl⟩

/-- INX reads no A and keeps it; LDA writes it. -/
theorem witness_RegistersReadOnlyByTheirReaders_a :
    Instr.inx.operation ∉ [.adc, .sbc, .and, .ora, .eor, .bit, .cmp, .sta, .tax, .tay, .pha] ∧ Instr.inx.operand ≠ .accumulator ∧
    Instr.inx.operation ∉ [.lda, .txa, .tya, .pla] ∧
    exec .inx { zero with a := 0x55 } = .next { zero with a := 0x55, x := 1, pc := 0x0001 } ∧
    (Instr.ldaImmediate 0x07).operation ∈ [.lda, .txa, .tya, .pla] ∧
    exec (.ldaImmediate 0x07) { zero with a := 0x55 } = .next { zero with a := 0x07, pc := 0x0002 } ∧
    exec (.ldaImmediate 0x07) zero = .next { zero with a := 0x07, pc := 0x0002 } :=
  ⟨by decide, by decide, by decide, rfl, by decide, rfl, rfl⟩

/-- LDX IndirectY's neighbour: LDA IndirectY reads no X under INDY_INDEX = Y; LDX writes it. -/
theorem witness_RegistersReadOnlyByTheirReaders_x :
    (Instr.ldaIndirectY 0x40).operation ∉ [.stx, .cpx, .inx, .dex, .txa, .txs] ∧
    (Instr.ldaIndirectY 0x40).mode ∉ [.zeroPageX, .absoluteX, .indirectX] ∧ zero.cfg.indyIndex = .y ∧
    exec (.ldaIndirectY 0x40) { zero with x := 0x55, y := 1, mem := [(1, 7)] } =
      .next { zero with a := 7, x := 0x55, y := 1, pc := 0x0002, mem := [(1, 7)] } ∧
    exec (.ldxImmediate 0x07) { zero with x := 0x55 } = .next { zero with x := 0x07, pc := 0x0002 } :=
  ⟨by decide, by decide, by decide, rfl, rfl⟩

/-- LDA IndirectY reads no Y under INDY_INDEX = X; TAY writes it. -/
theorem witness_RegistersReadOnlyByTheirReaders_y :
    (Instr.ldaIndirectY 0x40).operation ∉ [.sty, .cpy, .iny, .dey, .tya] ∧
    (Instr.ldaIndirectY 0x40).mode ∉ [.zeroPageY, .absoluteY] ∧ byX.indyIndex = .x ∧
    exec (.ldaIndirectY 0x40) { zero with cfg := byX, x := 1, y := 0x55, mem := [(1, 7)] } =
      .next { zero with cfg := byX, a := 7, x := 1, y := 0x55, pc := 0x0002, mem := [(1, 7)] } ∧
    exec .tay { zero with a := 7, y := 0x55 } = .next { zero with a := 7, y := 7, pc := 0x0001 } :=
  ⟨by decide, by decide, by decide, rfl, rfl⟩

/-- ADC under DECIMAL_MODE = binary with P.I or P.D the other way, and the instructions that write them. -/
theorem witness_InterruptAndDecimalFlagsMaskNothing :
    (Instr.adcImmediate 0x01).operation ∉ [.php, .brk] ∧ zero.cfg.decimalMode = .binary ∧
    exec (.adcImmediate 0x01) { zero with p := putFlag 0 .i true } = .next { zero with a := 1, p := 0x04, pc := 0x0002 } ∧
    exec (.adcImmediate 0x01) { zero with p := putFlag 0 .d true } = .next { zero with a := 1, p := 0x08, pc := 0x0002 } ∧
    exec .cli { zero with p := putFlag 0 .i true } = .next { zero with pc := 0x0001 } ∧
    exec .cld { zero with p := putFlag 0 .d true } = .next { zero with pc := 0x0001 } :=
  ⟨by decide, by decide, rfl, rfl, rfl, rfl⟩

/-- Each kind of failure of a step, and a failed run. -/
theorem witness_FailureKinds :
    step { zero with cfg := small 0x10, pc := 0x0010 } = .fault (.outOfBounds 0x10) ∧
    step { zero with mem := [(0, 0x02)] } = .fault (.undefinedOpcode 0x02) ∧
    step { zero with cfg := noDecimal, p := 0x08, mem := bytes [(0, [0x69, 0x01])] } = .refused .decimalArithmetic ∧
    multipleSteps 2 loadedFive = .failed 1 (.fault (.outOfBounds 0x0100)) { loadedFive with a := 0x05, pc := 0x0002 } :=
  ⟨rfl, rfl, rfl, rfl⟩

/-- An access out of range; none, with an undefined opcode; none, with the refusal; none, and a next state. -/
theorem witness_FirstBadAccessIsReported :
    firstOutOfBounds { zero with cfg := small 0xFFFF, sp := 0xFF } = some 0xFFFF ∧
    faultsWith (step { zero with cfg := small 0xFFFF, sp := 0xFF }) (.outOfBounds 0xFFFF) = true ∧
    firstOutOfBounds { zero with mem := [(0, 0xFF)] } = none ∧ 0xFF ∈ undefinedOpcodes ∧
    faultsWith (step { zero with mem := [(0, 0xFF)] }) (.undefinedOpcode 0xFF) = true ∧
    firstOutOfBounds { zero with cfg := noDecimal, p := 0x08, mem := bytes [(0, [0xE9, 0x01])] } = none ∧
    fetch { zero with cfg := noDecimal, p := 0x08, mem := bytes [(0, [0xE9, 0x01])] } = .ok (.sbcImmediate 0x01) ∧
    refusesDecimal (step { zero with cfg := noDecimal, p := 0x08, mem := bytes [(0, [0xE9, 0x01])] }) = true ∧
    firstOutOfBounds { zero with mem := [(0, 0xEA)] } = none ∧ 0xEA ∉ undefinedOpcodes ∧
    stepsTo { zero with mem := [(0, 0xEA)] } (fun s => { s with pc := 0x0001 }) = true := by decide

/-- BRK makes six accesses. -/
theorem witness_AtMostSixAccesses : zero.mem.get 0 = 0x00 ∧ (stepAccesses zero).length = 6 := by decide

/-- A run that completes, one that faults and one that is refused, each at its last step. -/
theorem witness_MultipleStepsStopsAtFirstFailure :
    step loadedFive = .next { loadedFive with a := 0x05, pc := 0x0002 } ∧
    multipleSteps 1 loadedFive = .ok { loadedFive with a := 0x05, pc := 0x0002 } ∧
    step { loadedFive with a := 0x05, pc := 0x0002 } = .fault (.outOfBounds 0x0100) ∧
    multipleSteps 2 loadedFive = .failed 1 (.fault (.outOfBounds 0x0100)) { loadedFive with a := 0x05, pc := 0x0002 } ∧
    multipleSteps 3 { zero with cfg := noDecimal, p := 0x08, mem := bytes [(0, [0x69, 0x01])] } =
      .failed 0 (.refused .decimalArithmetic) { zero with cfg := noDecimal, p := 0x08, mem := bytes [(0, [0x69, 0x01])] } :=
  ⟨rfl, rfl, rfl, rfl, rfl⟩

/-- LDA's pad byte, put at PC + 2. -/
theorem witness_PadByteNeverRead :
    wide.immWidth = .two ∧ fetch { zero with cfg := wide, mem := bytes [(0, [0xA9, 0x05])] } = .ok (.ldaImmediate 0x05) ∧
    stepsTo { zero with cfg := wide, mem := bytes [(0, [0xA9, 0x05, 0x77])] } (fun s => { s with a := 0x05, pc := 0x0003 }) = true := by
  decide

end Sys2Proof.Tests
end

section
/-! SUPPORT and PROOFS of the family 10_state.md: the memory and registers that `load` builds, setNZ, and which flags of P each
operation can write. -/

namespace Sys2Proof.Machine

/-! ### What `load` builds -/

/-- The cells listed from `a` up read as the byte function on their `n` addresses, and blank elsewhere. -/
theorem get_cellsFrom (byteAt : Nat → Byte) (a n k : Nat) :
    (cellsFrom byteAt a n).get k = if a ≤ k ∧ k < a + n then byteAt k else Memory.blank := by
  induction n generalizing a with
  | zero =>
    have hk : ¬ (a ≤ k ∧ k < a + 0) := by omega
    rw [if_neg hk]
    rfl
  | succ n ih =>
    by_cases hka : k = a
    · subst hka
      by_cases hb : byteAt k = Memory.blank <;> simp [cellsFrom, Memory.get, hb, ih]
    · have hrange : (a < k ∧ k < a + 1 + n) ↔ (a ≤ k ∧ k < a + (n + 1)) := by omega
      by_cases hb : byteAt a = Memory.blank <;> simp [cellsFrom, Memory.get, hb, ih, hrange, Ne.symm hka]

/-- The state that `load` answers when the image fits (70_reset_and_hazards.md R230 to R232). -/
def loadedState (cfg : Config) (fill : Nat → Byte) (image : List Byte) : State :=
  { State.reset with cfg := cfg, mem := cellsFrom (loadedByte fill image) 0 cfg.memSize }

theorem load_of_fits {cfg : Config} {image : List Byte} (h : image.length ≤ cfg.memSize) (fill : Nat → Byte) :
    load cfg fill image = .ok (loadedState cfg fill image) :=
  if_pos h

theorem load_of_too_long {cfg : Config} {image : List Byte} (h : cfg.memSize < image.length) (fill : Nat → Byte) :
    load cfg fill image = .loadRefused :=
  if_neg (Nat.not_le.mpr h)

/-- Inside memory a loaded machine reads the loaded byte. -/
theorem memRead_loadedState {cfg : Config} {k : Nat} (h : k < cfg.memSize) (fill : Nat → Byte) (image : List Byte) :
    memRead (loadedState cfg fill image) k = .ok (loadedByte fill image k) := by
  refine memRead_eq_ok.mpr ⟨h, ?_⟩
  simp [loadedState, get_cellsFrom, h]

/-- Settles O1: the reads go through `memRead_loadedState`, and an address holds the image's byte or FILL's as the image reaches
it or not. -/
theorem loadBuildsResetState : Obligations.LoadBuildsResetState := by
  intro cfg fill image
  refine ⟨fun hfit => ⟨loadedState cfg fill image, load_of_fits hfit fill, rfl, rfl, rfl, rfl, rfl, rfl, rfl, ?_, ?_, ?_⟩,
    fun hlong => load_of_too_long hlong fill⟩
  · intro k b hb
    obtain ⟨hk, -⟩ := List.getElem?_eq_some_iff.mp hb
    simp [memRead_loadedState (hk.trans_le hfit), loadedByte, hb]
  · intro k hk hmem
    simp [memRead_loadedState hmem, loadedByte, hk]
  · intro k hk
    exact memRead_eq_error.mpr ⟨hk, rfl⟩

/-! ### setNZ -/

/-- setNZ writes exactly the flags of `nzOf` (10_state.md R25). -/
theorem flagsWritten_setNZ (p r : Byte) : FlagsWritten p (setNZ p r) (nzOf r) := by
  intro f
  rw [getFlag_setNZ]
  cases f <;> rfl

/-- Settles O23: `nzOf r` is the obligation's list. -/
theorem setNZWritesZAndN : Obligations.SetNZWritesZAndN := flagsWritten_setNZ

/-! ### What an operation leaves in P -/

/-- How an operation makes the status `q` of the next state from the status `p`: the flag computation it runs, on operands left
open (the instruction rules of files 41 to 48). -/
def StatusAfter (p q : Byte) : Operation → Prop
  | .lda | .ldx | .ldy | .tax | .tay | .txa | .tya | .tsx | .pla | .and | .ora | .eor
  | .inc | .dec | .inx | .iny | .dex | .dey => ∃ r, q = setNZ p r
  | .adc | .sbc => ∃ t, q = sumFlags p t
  | .cmp | .cpx | .cpy => ∃ reg m, q = compareFlags p reg m
  | .bit => ∃ a m, q = bitFlags p a m
  | .asl | .lsr | .rol | .ror => ∃ t, q = shiftFlags p t
  | .clc => q = putFlag p .c false
  | .sec => q = putFlag p .c true
  | .cli => q = putFlag p .i false
  | .sei | .brk => q = putFlag p .i true
  | .cld => q = putFlag p .d false
  | .sed => q = putFlag p .d true
  | .clv => q = putFlag p .v false
  | .plp | .rti => ∃ b, q = pulledStatus b
  | .sta | .stx | .sty | .bpl | .bmi | .bvc | .bvs | .bcc | .bcs | .bne | .beq | .jmp | .jsr | .rts | .pha | .php | .txs
  | .nop => q = p

/-! #### The operand shapes and the resolver, when a next state is answered -/

theorem onMem_eq_next {k : MemOperand → Out} {o : Operand} {t : State} :
    onMem k o = .next t ↔ ∃ m, o = .mem m ∧ k m = .next t := by
  cases o <;> simp [onMem]

theorem onImmediate_eq_next {k : Byte → Out} {o : Operand} {t : State} :
    onImmediate k o = .next t ↔ ∃ d, o = .immediate d ∧ k d = .next t := by
  cases o <;> simp [onImmediate]

theorem onShift_eq_next {acc : Out} {k : MemOperand → Out} {o : Operand} {t : State} :
    onShift acc k o = .next t ↔ (o = .accumulator ∧ acc = .next t) ∨ ∃ m, o = .mem m ∧ k m = .next t := by
  cases o <;> simp [onShift]

/-- A mapped result is a success exactly when the result is one. -/
theorem exceptMap_eq_ok {α β : Type} {f : α → β} {e : Except Fault α} {b : β} :
    e.map f = .ok b ↔ ∃ a, e = .ok a ∧ f a = b := by
  cases e <;> simp [Except.map]

/-- An operation on a memory operand answers a next state only when the operand resolves. -/
theorem resolves_of_withTarget_next {m : MemOperand} {s t : State} {k : Resolved → State → Out}
    (h : withTarget m s k = .next t) : ∃ r, resolveMem s m = .ok r := by
  obtain ⟨r, hr, -⟩ := withTarget_eq_next.mp h
  exact ⟨r, hr⟩

/-! #### P after the shared operations -/

theorem addToA_status {v : Byte} {s t : State} (h : addToA v s = .next t) : ∃ u, t.p = sumFlags s.p u := by
  unfold addToA at h
  split at h
  · cases h
  · cases h
    exact ⟨_, rfl⟩

theorem storeByte_status {v : Byte} {m : MemOperand} {s t : State} (h : storeByte v m s = .next t) : t.p = s.p := by
  obtain ⟨r, hr⟩ := resolves_of_withTarget_next h
  cases (storeByte_ok hr v).symm.trans h
  rfl

theorem modifyMem_status {f : Byte → Byte} {m : MemOperand} {s t : State} (h : modifyMem f m s = .next t) :
    ∃ r, t.p = setNZ s.p r := by
  obtain ⟨r, hr⟩ := resolves_of_withTarget_next h
  cases (modifyMem_ok hr f).symm.trans h
  exact ⟨_, rfl⟩

theorem shiftMem_status {f : Byte → Bool → Shifted} {m : MemOperand} {s t : State} (h : shiftMem f m s = .next t) :
    ∃ u, t.p = shiftFlags s.p u := by
  obtain ⟨r, hr⟩ := resolves_of_withTarget_next h
  cases (shiftMem_ok hr f).symm.trans h
  exact ⟨_, rfl⟩

/-- A shift, of A or of memory. -/
theorem onShift_status {f : Byte → Bool → Shifted} {o : Operand} {s t : State}
    (h : onShift (shiftA f s) (fun m => shiftMem f m s) o = .next t) : ∃ u, t.p = shiftFlags s.p u := by
  obtain ⟨-, hacc⟩ | ⟨m, -, hmem⟩ := onShift_eq_next.mp h
  · obtain ⟨v, -, hv⟩ := withValue_eq_next.mp hacc
    cases hv
    exact ⟨_, rfl⟩
  · exact shiftMem_status hmem

theorem branchIf_status {f : Flag} {want : Bool} {d : Byte} {s t : State} (h : branchIf f want d s = .next t) :
    t.p = s.p := by
  obtain ⟨v, -, hv⟩ := withValue_eq_next.mp h
  cases hv
  split <;> rfl

/-! #### P after the stack operations -/

theorem push_status {v : Byte} {s t : State} (h : push v s = .ok t) : t.p = s.p := by
  obtain ⟨-, rfl⟩ := push_eq_ok.mp h
  rfl

theorem pull_status {b : Byte} {s t : State} (h : pull s = .ok (b, t)) : t.p = s.p := by
  obtain ⟨-, -, rfl⟩ := pull_eq_ok.mp h
  rfl

theorem pushWord_status {w : Word} {s t : State} (h : pushWord w s = .ok t) : t.p = s.p := by
  unfold pushWord at h
  split at h
  · cases h
  · next u hu => exact (push_status h).trans (push_status hu)

theorem pullWord_status {w : Word} {s t : State} (h : pullWord s = .ok (w, t)) : t.p = s.p := by
  unfold pullWord at h
  split at h
  · cases h
  · next lo u hu =>
    split at h
    · cases h
    · next hi v hv =>
      cases h
      exact (pull_status hv).trans (pull_status hu)

/-- A pull that feeds a register write: the write is made on a state with the same P. -/
theorem pullInto_eq_ok {k : Byte → State → State} {s t : State} (h : pullInto k s = .ok t) :
    ∃ b u, u.p = s.p ∧ t = k b u := by
  obtain ⟨⟨b, u⟩, hp, hk⟩ := exceptMap_eq_ok.mp h
  exact ⟨b, u, pull_status hp, hk.symm⟩

theorem callSubroutine_status {m : MemOperand} {s t : State} (h : callSubroutine m s = .next t) : t.p = s.p := by
  obtain ⟨r, -, hr⟩ := withTarget_eq_next.mp h
  obtain ⟨u, hp, rfl⟩ := exceptMap_eq_ok.mp (finish_eq_next.mp hr)
  exact (pushWord_status hp :)

theorem returnFromSubroutine_status {s t : State} (h : returnFromSubroutine s = .ok t) : t.p = s.p := by
  obtain ⟨⟨w, u⟩, hp, rfl⟩ := exceptMap_eq_ok.mp h
  exact (pullWord_status hp :)

/-- Entering the handler sets I in P, after a copy of P is pushed (60_exceptions.md R209). -/
theorem takeBreak_status {ret : Word} {s t : State} (h : takeBreak ret s = .ok t) : t.p = putFlag s.p .i true := by
  unfold takeBreak at h
  split at h
  · cases h
  · next u hu =>
    split at h
    · cases h
    · next v hv =>
      split at h
      · cases h
      · cases h
        have hp : v.p = s.p := (push_status hv).trans (pushWord_status hu)
        simp [hp]

/-- Returning from the handler takes P from the stack (60_exceptions.md R210). -/
theorem returnFromBreak_status {s t : State} (h : returnFromBreak s = .ok t) : ∃ b, t.p = pulledStatus b := by
  unfold returnFromBreak at h
  split at h
  · cases h
  · next b u hu =>
    split at h
    · cases h
    · next w v hv =>
      cases h
      exact ⟨b, pullWord_status hv⟩

/-! #### P after an instruction -/

/-- What each operation does to P when it answers a next state. -/
theorem execOp_status {o : Operand} {s t : State} {op : Operation} (h : execOp o s op = .next t) :
    StatusAfter s.p t.p op := by
  cases op with
  | lda | ldx | ldy | and | ora | eor =>
    simp only [execOp] at h
    obtain ⟨v, -, hv⟩ := withValue_eq_next.mp h
    cases hv
    exact ⟨_, rfl⟩
  | tax | tay | txa | tya | tsx | inx | iny | dex | dey =>
    cases h
    exact ⟨_, rfl⟩
  | inc | dec =>
    obtain ⟨m, -, hm⟩ := onMem_eq_next.mp h
    exact modifyMem_status hm
  | adc | sbc =>
    obtain ⟨v, -, hv⟩ := withValue_eq_next.mp h
    exact (addToA_status hv :)
  | cmp | cpx | cpy | bit =>
    simp only [execOp] at h
    obtain ⟨v, -, hv⟩ := withValue_eq_next.mp h
    cases hv
    exact ⟨_, _, rfl⟩
  | asl | lsr | rol | ror => exact onShift_status h
  | clc | sec | cli | sei | cld | sed | clv | txs | nop =>
    cases h
    rfl
  | sta | stx | sty =>
    obtain ⟨m, -, hm⟩ := onMem_eq_next.mp h
    exact storeByte_status hm
  | bpl | bmi | bvc | bvs | bcc | bcs | bne | beq =>
    obtain ⟨d, -, hd⟩ := onImmediate_eq_next.mp h
    exact branchIf_status hd
  | jmp =>
    obtain ⟨m, -, hm⟩ := onMem_eq_next.mp h
    obtain ⟨r, -, hr⟩ := withTarget_eq_next.mp hm
    cases hr
    rfl
  | jsr =>
    obtain ⟨m, -, hm⟩ := onMem_eq_next.mp h
    exact callSubroutine_status hm
  | rts => exact (returnFromSubroutine_status (finish_eq_next.mp h) :)
  | brk => exact (takeBreak_status (finish_eq_next.mp h) :)
  | rti => exact returnFromBreak_status (finish_eq_next.mp h)
  | pha | php => exact (push_status (finish_eq_next.mp h) :)
  | pla =>
    obtain ⟨b, u, hu, rfl⟩ := pullInto_eq_ok (finish_eq_next.mp h)
    exact ⟨b, congrArg (setNZ · b) hu⟩
  | plp =>
    obtain ⟨b, u, -, rfl⟩ := pullInto_eq_ok (finish_eq_next.mp h)
    exact ⟨b, rfl⟩

theorem exec_status {i : Instr} {s t : State} (h : exec i s = .next t) : StatusAfter s.p t.p i.operation :=
  execOp_status ((exec_eq i s).symm.trans h)

/-! ### Which flags an operation writes -/

/-- The flags an operation can write (10_state.md R17 to R24). -/
def writtenFlags : Operation → List Flag
  | .lda | .ldx | .ldy | .tax | .tay | .txa | .tya | .tsx | .pla | .and | .ora | .eor
  | .inc | .dec | .inx | .iny | .dex | .dey => [.z, .n]
  | .adc | .sbc => [.c, .z, .v, .n]
  | .cmp | .cpx | .cpy | .asl | .lsr | .rol | .ror => [.c, .z, .n]
  | .bit => [.z, .v, .n]
  | .clc | .sec => [.c]
  | .cli | .sei | .brk => [.i]
  | .cld | .sed => [.d]
  | .clv => [.v]
  | .plp | .rti => [.c, .z, .i, .d, .b, .u, .v, .n]
  | .sta | .stx | .sty | .bpl | .bmi | .bvc | .bvs | .bcc | .bcs | .bne | .beq | .jmp | .jsr | .rts | .pha | .php | .txs
  | .nop => []

/-- A flag not listed for an operation keeps its value. -/
theorem StatusAfter.getFlag_eq {p q : Byte} {op : Operation} (h : StatusAfter p q op) {f : Flag}
    (hf : f ∉ writtenFlags op) : getFlag q f = getFlag p f := by
  cases op with
  | lda | ldx | ldy | tax | tay | txa | tya | tsx | pla | and | ora | eor | inc | dec | inx | iny | dex | dey =>
    obtain ⟨r, rfl⟩ := h
    simp_all [writtenFlags, getFlag_setNZ]
  | adc | sbc =>
    obtain ⟨t, rfl⟩ := h
    simp_all [writtenFlags, sumFlags, getFlag_setNZ, getFlag_putFlag]
  | cmp | cpx | cpy =>
    obtain ⟨reg, m, rfl⟩ := h
    simp_all [writtenFlags, compareFlags, getFlag_setNZ, getFlag_putFlag]
  | bit =>
    obtain ⟨a, m, rfl⟩ := h
    simp_all [writtenFlags, bitFlags, getFlag_putFlag]
  | asl | lsr | rol | ror =>
    obtain ⟨t, rfl⟩ := h
    simp_all [writtenFlags, shiftFlags, getFlag_setNZ, getFlag_putFlag]
  | clc | sec | cli | sei | brk | cld | sed | clv =>
    simp_all [StatusAfter, writtenFlags, getFlag_putFlag]
  | plp | rti => cases f <;> simp [writtenFlags] at hf
  | sta | stx | sty | bpl | bmi | bvc | bvs | bcc | bcs | bne | beq | jmp | jsr | rts | pha | php | txs | nop =>
    exact congrArg (getFlag · f) h

/-- An instruction whose operation does not name a flag leaves it unchanged (10_state.md R24). -/
theorem exec_keeps_flag {i : Instr} {s t : State} (h : exec i s = .next t) {f : Flag}
    (hf : f ∉ writtenFlags i.operation) : getFlag t.p f = getFlag s.p f :=
  (exec_status h).getFlag_eq hf

/-- Settles O50: each list of the obligation holds every operation whose `writtenFlags` holds the flag. -/
theorem flagWriters : Obligations.FlagWriters := by
  intro i s t h
  have keep (f : Flag) := exec_keeps_flag h (f := f)
  generalize i.operation = op at keep ⊢
  refine ⟨fun hop => keep .c ?_, fun hop => keep .v ?_, fun hop => keep .i ?_, fun hop => keep .d ?_,
    fun hop => ⟨keep .n ?_, keep .z ?_⟩, fun hop => ⟨keep .b ?_, keep .u ?_⟩⟩ <;>
  · revert hop
    cases op <;> decide

end Sys2Proof.Machine
end

section
/-! PROOFS of the family 20_memory.md: what the transactions answer. -/

namespace Sys2Proof.Machine

/-- Settles O14: the value is `toNat_joinBytes` with the byte at the lower address as the low one, and the two faults are the two
cases of `memReadWord_eq_error`. -/
theorem wordReadIsLittleEndian : Obligations.WordReadIsLittleEndian := by
  intro s a
  refine ⟨fun hin => ⟨joinBytes (s.mem.get (a + 1)) (s.mem.get a), memReadWord_eq_ok.mpr ⟨hin, rfl⟩, ?_⟩,
    fun hout => memReadWord_eq_error.mpr (.inl ⟨hout, rfl⟩),
    fun hlast => memReadWord_eq_error.mpr (.inr ⟨hlast, rfl⟩)⟩
  rw [toNat_joinBytes, Nat.add_comm]

/-- Settles O13: the two cases are those of `memRead_eq_ok` and `memRead_eq_error`. -/
theorem byteReadChecksBounds : Obligations.ByteReadChecksBounds := by
  intro s a
  exact ⟨fun hin => memRead_eq_ok.mpr ⟨hin, rfl⟩, fun hout => memRead_eq_error.mpr ⟨hout, rfl⟩⟩

end Sys2Proof.Machine
end

section
/-! PROOFS of the family 30_encoding.md: the undefined opcodes, and how long an encoding is. -/

namespace Sys2Proof

/-! ### The undefined opcodes -/

/-- The grid's dashes are exactly R55's list, one cell after the other. -/
theorem formOf_eq_none {op : Byte} : formOf op = none ↔ op ∈ undefinedOpcodes := by
  have hgrid : ∀ op : Byte, (formOf op).isNone = true ↔ op ∈ undefinedOpcodes := by decide
  rw [← Option.isNone_iff_eq_none, hgrid]

theorem decodeOpcode_eq_none {op : Byte} : decodeOpcode op = none ↔ op ∈ undefinedOpcodes :=
  Option.map_eq_none_iff.trans formOf_eq_none

/-- Decoding refuses an undefined opcode, whatever follows it (R55). -/
theorem decode_undefined {op : Byte} (h : op ∈ undefinedOpcodes) (w : ImmWidth) (rest : List Byte) :
    decode w (op :: rest) = .error (.undefinedOpcode op) := by
  simp [decode, formOf_eq_none.mpr h]

/-- An undefined opcode has no length (R57). -/
theorem opcodeLength_undefined {op : Byte} (h : op ∈ undefinedOpcodes) (w : ImmWidth) : opcodeLength w op = none := by
  simp [opcodeLength, decodeOpcode_eq_none.mpr h]

/-! ### The length of an encoding -/

theorem MemOperand.length_bytes (m : MemOperand) (w : ImmWidth) : m.bytes.length = modeWidth w m.mode := by
  cases m <;> rfl

/-- What follows the opcode in an encoding, the pad byte of R59 included, is as long as the mode's width (R51). -/
theorem Operand.length_bytes_add_padBytes (o : Operand) (w : ImmWidth) :
    o.bytes.length + (padBytes w o).length = modeWidth w o.mode := by
  cases o with
  | implied | accumulator => rfl
  | immediate v => cases w <;> rfl
  | mem m => exact m.length_bytes w

theorem length_encode (w : ImmWidth) (i : Instr) : (encode w i).length = 1 + modeWidth w i.mode := by
  have hwidth := i.operand.length_bytes_add_padBytes w
  simp only [encode, Instr.bytes, Instr.mode, List.length_append, List.length_cons]
  omega

/-- The opcode alone gives the length of its instructions (R57). -/
theorem opcodeLength_opcode (w : ImmWidth) (i : Instr) : opcodeLength w i.opcode = some (1 + modeWidth w i.mode) := by
  simp [opcodeLength, decodeOpcode_opcode]

/-- Settles O9: the table of widths is read off `modeWidth`; the lengths are `length_encode`, `opcodeLength_opcode` and
`opcodeLength_undefined`. -/
theorem encodingLengths : Obligations.EncodingLengths := by
  refine ⟨⟨rfl, rfl⟩, fun w => ⟨?_, ?_, ?_⟩, fun w i => ⟨rfl, length_encode w i, opcodeLength_opcode w i⟩,
    fun w op h => opcodeLength_undefined h w⟩
  all_goals simp [modeWidth]

end Sys2Proof

namespace Sys2Proof.Machine

/-- Fetching an undefined opcode faults before any operand byte is read (R202). -/
theorem fetch_undefined {s : State} {op : Byte} (hread : memRead s s.pc.toNat = .ok op) (h : op ∈ undefinedOpcodes) :
    fetch s = .error (.undefinedOpcode op) := by
  simp [fetch, fetchAddr, hread, formOf_eq_none.mpr h]

/-- Settles O10: all three clauses rest on `formOf_eq_none`, for the pair, for the decoder and for the fetch. -/
theorem undefinedOpcodesFault : Obligations.UndefinedOpcodesFault := by
  refine ⟨fun op => decodeOpcode_eq_none, fun w rest op h => decode_undefined h w rest, fun s op h hread => ?_⟩
  simp [step, fetch_undefined hread h]

end Sys2Proof.Machine
end

section
/-! PROOFS of the family 40_sequencer_addressing.md: where each mode's operand is read, what it resolves to, PC_seq, and runs of
several steps. -/

namespace Sys2Proof.Machine

/-! ### The operand of a fetched instruction -/

/-- A fetch succeeds exactly when the opcode is in memory and defined and the operand of its form is fetched (R71, R72). -/
theorem fetch_eq_ok {s : State} {i : Instr} :
    fetch s = .ok i ↔
      ∃ op form, memRead s s.pc.toNat = .ok op ∧ formOf op = some form ∧ fetchOperand s form = .ok i := by
  simp only [fetch, fetchAddr]
  cases memRead s s.pc.toNat with
  | error f => simp
  | ok op => cases hform : formOf op <;> simp [hform]

/-- The operand bytes of a fetched instruction: none, the byte at PC + 1, or the word there. -/
theorem operandBytes_of_fetch {s : State} {i : Instr} (h : fetch s = .ok i) :
    i.operand.bytes = [] ∨
      (∃ b, i.operand.bytes = [b] ∧ memRead s (s.pc + 1).toNat = .ok b) ∨
      (∃ w, i.operand.bytes = [loByte w, hiByte w] ∧ memReadWord s (s.pc + 1).toNat = .ok w) := by
  obtain ⟨op, form, -, hform, hop⟩ := fetch_eq_ok.mp h
  have hfits := formOf_fits hform
  cases form with
  | bare j =>
    cases hop
    exact .inl hfits.2
  | byte g =>
    obtain ⟨b, hread, rfl⟩ := exceptMap_eq_ok.mp hop
    obtain ⟨-, hbytes, -⟩ := hfits b
    exact .inr (.inl ⟨b, hbytes, hread⟩)
  | word g =>
    obtain ⟨w, hread, rfl⟩ := exceptMap_eq_ok.mp hop
    obtain ⟨-, hbytes, -⟩ := hfits w
    exact .inr (.inr ⟨w, hbytes, hread⟩)

/-- A one-byte operand is the byte at PC + 1. -/
theorem memRead_of_fetch {s : State} {i : Instr} {b : Byte} (h : fetch s = .ok i) (hb : i.operand.bytes = [b]) :
    memRead s (s.pc + 1).toNat = .ok b := by
  obtain hnone | ⟨c, hbyte, hread⟩ | ⟨w, hword, -⟩ := operandBytes_of_fetch h
  · cases hnone.symm.trans hb
  · cases hbyte.symm.trans hb
    exact hread
  · cases hword.symm.trans hb

/-- A two-byte operand is the word at PC + 1. -/
theorem memReadWord_of_fetch {s : State} {i : Instr} {w : Word} (h : fetch s = .ok i)
    (hw : i.operand.bytes = [loByte w, hiByte w]) : memReadWord s (s.pc + 1).toNat = .ok w := by
  obtain hnone | ⟨c, hbyte, -⟩ | ⟨v, hword, hread⟩ := operandBytes_of_fetch h
  · cases hnone.symm.trans hw
  · cases hbyte.symm.trans hw
  · obtain ⟨hlo, hhi⟩ : loByte v = loByte w ∧ hiByte v = hiByte w := by simpa using hword.symm.trans hw
    rw [hread, ← joinBytes_split v, hlo, hhi, joinBytes_split]

/-! ### PC_seq -/

/-- PC_seq is PC plus the length of the instruction (10_state.md R15). -/
theorem pcSeq_eq (s : State) (o : Operand) :
    pcSeq s o = s.pc + BitVec.ofNat 16 (1 + modeWidth s.cfg.immWidth o.mode) := by
  rw [pcSeq, BitVec.ofNat_add, BitVec.add_assoc]

/-- PC_seq in a memory mode, by the number of the operand's bytes. -/
theorem pcSeq_mem (s : State) (m : MemOperand) : pcSeq s (.mem m) = s.pc + BitVec.ofNat 16 (1 + m.bytes.length) := by
  rw [m.length_bytes s.cfg.immWidth]
  exact pcSeq_eq s (.mem m)

/-- A memory operand of one byte: the instruction is two bytes long, and the operand is the byte at PC + 1. -/
theorem byteOperand_fetched {m : MemOperand} {z : Byte} (hm : m.bytes = [z]) (s : State) :
    pcSeq s (.mem m) = s.pc + 2 ∧
      ∀ i, fetch s = .ok i → i.operand = .mem m → memRead s (s.pc + 1).toNat = .ok z := by
  refine ⟨by simp [pcSeq_mem, hm], fun i hfetch hop => memRead_of_fetch hfetch ?_⟩
  rw [hop]
  exact hm

/-- A memory operand of two bytes: the instruction is three bytes long, and the operand is the word at PC + 1. -/
theorem wordOperand_fetched {m : MemOperand} {a : Word} (hm : m.bytes = [loByte a, hiByte a]) (s : State) :
    pcSeq s (.mem m) = s.pc + 3 ∧
      ∀ i, fetch s = .ok i → i.operand = .mem m → memReadWord s (s.pc + 1).toNat = .ok a := by
  refine ⟨by simp [pcSeq_mem, hm], fun i hfetch hop => memReadWord_of_fetch hfetch ?_⟩
  rw [hop]
  exact hm

/-! ### The effective address and the value there -/

/-- An operand resolves at the effective address it forms (R73). -/
theorem resolvesAt_of_effectiveAddress {s : State} {m : MemOperand} {ea : Nat} (h : effectiveAddress s m = .ok ea) :
    ResolvesAt s m ea := by
  unfold ResolvesAt
  split
  · next hin => exact resolveMem_eq_ok.mpr ⟨h, hin, rfl⟩
  · next hout => simp [resolveMem, h, memRead_eq_error.mpr ⟨Nat.le_of_not_lt hout, rfl⟩]

/-- A fault while the address is formed, which is one on a pointer byte, is the resolver's fault. -/
theorem resolveMem_of_effectiveAddress_error {s : State} {m : MemOperand} {f : Fault}
    (h : effectiveAddress s m = .error f) : resolveMem s m = .error f := by
  simp [resolveMem, h]

/-- A zero-page sum is the sum of the two bytes mod 256 (R79, R80). -/
theorem toNat_zeroPageSum (z r : Byte) : (z + r).toNat = (z.toNat + r.toNat) % 256 := BitVec.toNat_add z r

/-- Settles O19: each address is `effectiveAddress` with `toNat_zeroPageSum`; PC_seq and the operand are `byteOperand_fetched`. -/
theorem zeroPageModesResolve : Obligations.ZeroPageModesResolve := by
  intro s z
  refine ⟨resolvesAt_of_effectiveAddress rfl,
    resolvesAt_of_effectiveAddress (congrArg Except.ok (toNat_zeroPageSum z s.x)),
    resolvesAt_of_effectiveAddress (congrArg Except.ok (toNat_zeroPageSum z s.y)),
    fun m hm => byteOperand_fetched ?_ s⟩
  simp only [List.mem_cons, List.not_mem_nil, or_false] at hm
  rcases hm with rfl | rfl | rfl <;> rfl

/-- Settles O20: each address is `effectiveAddress` as it stands; PC_seq and the operand are `wordOperand_fetched`. -/
theorem absoluteModesResolve : Obligations.AbsoluteModesResolve := by
  intro s a
  refine ⟨resolvesAt_of_effectiveAddress rfl, resolvesAt_of_effectiveAddress rfl, resolvesAt_of_effectiveAddress rfl,
    fun m hm => wordOperand_fetched ?_ s⟩
  simp only [List.mem_cons, List.not_mem_nil, or_false] at hm
  rcases hm with rfl | rfl | rfl <;> rfl

/-- An operand whose address is made from a pointer: the word read of the pointer resolves it, and a fault of that read is the
resolver's (R83 to R85). -/
theorem resolves_through_pointer {s : State} {m : MemOperand} {ptr : Nat} {toAddr : Word → Nat}
    (h : effectiveAddress s m = (memReadWord s ptr).map toAddr) :
    (∀ w, memReadWord s ptr = .ok w → ResolvesAt s m (toAddr w)) ∧
      (∀ f, memReadWord s ptr = .error f → resolveMem s m = .error f) := by
  refine ⟨fun w hw => resolvesAt_of_effectiveAddress ?_, fun f hf => resolveMem_of_effectiveAddress_error ?_⟩
  · rw [h, hw, Except.map]
  · rw [h, hf, Except.map]

theorem indexOfIndirectY_of_y {s : State} (h : s.cfg.indyIndex = .y) : indexOfIndirectY s = s.y := by
  simp [indexOfIndirectY, h]

theorem indexOfIndirectY_of_x {s : State} (h : s.cfg.indyIndex = .x) : indexOfIndirectY s = s.x := by
  simp [indexOfIndirectY, h]

/-- Settles O21: `resolves_through_pointer` in each of the three modes, with the index register INDY_INDEX selects. -/
theorem pointerModesResolve : Obligations.PointerModesResolve := by
  intro s p z
  have hX : effectiveAddress s (.indirectX z) =
      (memReadWord s ((z.toNat + s.x.toNat) % 256)).map BitVec.toNat := by
    rw [← toNat_zeroPageSum, effectiveAddress]
  obtain ⟨indirectOk, indirectError⟩ := resolves_through_pointer (s := s) (m := .indirect p) rfl
  obtain ⟨indirectXOk, indirectXError⟩ := resolves_through_pointer hX
  obtain ⟨indirectYOk, indirectYError⟩ := resolves_through_pointer (s := s) (m := .indirectY z) rfl
  refine ⟨indirectOk, indirectError, indirectXOk, indirectXError, fun w hw => ⟨fun hy => ?_, fun hx => ?_⟩,
    indirectYError, wordOperand_fetched rfl s, fun m hm => byteOperand_fetched ?_ s⟩
  · exact indexOfIndirectY_of_y hy ▸ indirectYOk w hw
  · exact indexOfIndirectY_of_x hx ▸ indirectYOk w hw
  · simp only [List.mem_cons, List.not_mem_nil, or_false] at hm
    rcases hm with rfl | rfl <;> rfl

/-- Settles O18: the values are `operandValue` as it stands, PC_seq is `pcSeq_eq` at the mode's width, and the immediate byte is
`memRead_of_fetch`. -/
theorem registerModesResolve : Obligations.RegisterModesResolve := by
  intro s
  refine ⟨⟨rfl, pcSeq_eq s .accumulator⟩, ⟨rfl, pcSeq_eq s .implied⟩, fun v => ⟨rfl, fun hone => ?_, fun htwo => ?_,
    fun i hfetch hop => memRead_of_fetch hfetch (congrArg Operand.bytes hop)⟩⟩
  · simp [pcSeq_eq, hone, Operand.mode, modeWidth, immBytes]
  · simp [pcSeq_eq, htwo, Operand.mode, modeWidth, immBytes]

/-! ### Runs of several steps -/

/-- A run continued from the state it completed in; a failed run stays as it is. -/
def RunResult.andThen : RunResult → (State → RunResult) → RunResult
  | .ok s, k => k s
  | .failed i why s, _ => .failed i why s

/-- The step's outcome that a failure reports. -/
def Failure.outcome : Failure → Out
  | .fault f => .fault f
  | .refused r => .refused r

/-- A run is its first `m` steps, then the others with the indices that follow. -/
theorem stepsFrom_add (m n k : Nat) (s : State) :
    stepsFrom k (m + n) s = (stepsFrom k m s).andThen (stepsFrom (k + m) n) := by
  induction m generalizing k s with
  | zero => simp [stepsFrom, RunResult.andThen]
  | succ m ih =>
    have hindex : k + 1 + m = k + (m + 1) := by omega
    rw [Nat.add_right_comm m 1 n]
    cases hstep : step s with
    | next t => simp [stepsFrom, hstep, ih, hindex]
    | fault f => simp [stepsFrom, hstep, RunResult.andThen]
    | refused r => simp [stepsFrom, hstep, RunResult.andThen]

theorem stepsFrom_one_eq_ok {k : Nat} {s t : State} : stepsFrom k 1 s = .ok t ↔ step s = .next t := by
  cases hstep : step s <;> simp [stepsFrom, hstep]

theorem stepsFrom_one_eq_failed {k j : Nat} {why : Failure} {s t : State} :
    stepsFrom k 1 s = .failed j why t ↔ j = k ∧ s = t ∧ step s = why.outcome := by
  cases hstep : step s <;> cases why <;> simp [stepsFrom, hstep, Failure.outcome, eq_comm, and_comm]

theorem multipleSteps_succ (n : Nat) (s : State) :
    multipleSteps (n + 1) s = (multipleSteps n s).andThen (stepsFrom n 1) := by
  simpa [multipleSteps] using stepsFrom_add n 1 0 s

/-- A run completes exactly when it does without its last step and that step answers the state. -/
theorem multipleSteps_succ_eq_ok {n : Nat} {s t : State} :
    multipleSteps (n + 1) s = .ok t ↔ ∃ u, multipleSteps n s = .ok u ∧ step u = .next t := by
  rw [multipleSteps_succ]
  cases multipleSteps n s <;> simp [RunResult.andThen, stepsFrom_one_eq_ok]

/-- A run fails exactly when it does without its last step, or completes without it and that step fails. -/
theorem multipleSteps_succ_eq_failed {n k : Nat} {why : Failure} {s t : State} :
    multipleSteps (n + 1) s = .failed k why t ↔
      multipleSteps n s = .failed k why t ∨ k = n ∧ multipleSteps n s = .ok t ∧ step t = why.outcome := by
  rw [multipleSteps_succ]
  cases multipleSteps n s with
  | failed j why' u => simp [RunResult.andThen]
  | ok u =>
    simp only [RunResult.andThen, stepsFrom_one_eq_failed, RunResult.ok.injEq, reduceCtorEq, false_or]
    constructor <;> (rintro ⟨hk, rfl, hstep⟩; exact ⟨hk, rfl, hstep⟩)

/-- A run of `m + n` steps completes exactly when a run of `m` does and a run of `n` from there does. -/
theorem multipleSteps_add_eq_ok {m n : Nat} {s t : State} :
    multipleSteps (m + n) s = .ok t ↔ ∃ u, multipleSteps m s = .ok u ∧ multipleSteps n u = .ok t := by
  induction n generalizing t with
  | zero => simp [multipleSteps, stepsFrom]
  | succ n ih =>
    simp only [← Nat.add_assoc, multipleSteps_succ_eq_ok, ih]
    constructor
    · rintro ⟨v, ⟨u, hm, hn⟩, hstep⟩
      exact ⟨u, hm, v, hn, hstep⟩
    · rintro ⟨u, hm, v, hn, hstep⟩
      exact ⟨v, ⟨u, hm, hn⟩, hstep⟩

/-- A run fails at index `k` exactly when it has such a step, the `k` steps before it complete and it fails. -/
theorem multipleSteps_eq_failed {n k : Nat} {why : Failure} {s t : State} :
    multipleSteps n s = .failed k why t ↔ k < n ∧ multipleSteps k s = .ok t ∧ step t = why.outcome := by
  induction n with
  | zero => simp [multipleSteps, stepsFrom]
  | succ n ih =>
    rw [multipleSteps_succ_eq_failed, ih, Nat.lt_succ_iff_lt_or_eq, or_and_right]
    exact or_congr_right (and_congr_right fun hk => hk ▸ Iff.rfl)

/-- Settles O59: `multipleSteps_add_eq_ok` for the runs that complete, `multipleSteps_eq_failed` for those that fail. -/
theorem multipleStepsStopsAtFirstFailure : Obligations.MultipleStepsStopsAtFirstFailure := fun _ =>
  ⟨rfl, fun _ => stepsFrom_one_eq_ok, fun _ _ _ => multipleSteps_add_eq_ok,
    fun _ _ _ f => multipleSteps_eq_failed (why := .fault f),
    fun _ _ _ r => multipleSteps_eq_failed (why := .refused r)⟩

end Sys2Proof.Machine
end

section
/-! SUPPORT and PROOFS of the family 41_load_store_transfer.md: the opcodes of an operation, the byte a store writes, and what each
load, store and transfer answers. -/

namespace Sys2Proof

/-! ### The opcodes of an operation -/

/-- One instruction of every cell of the opcode map, with a zero operand. -/
def gridSamples : List Instr := opcodeGrid.flatten.reduceOption.map Form.sample

theorem sample_mem_gridSamples {op : Byte} {f : Form} (h : formOf op = some f) : f.sample ∈ gridSamples := by
  obtain ⟨row, hrow, hcell⟩ := Option.bind_eq_some_iff.mp (Option.join_eq_some_iff.mp h)
  have hmem : some f ∈ opcodeGrid.flatten :=
    List.mem_flatten.mpr ⟨row, List.mem_of_getElem? hrow, List.mem_of_getElem? hcell⟩
  exact List.mem_map_of_mem (List.reduceOption_mem_iff.mpr hmem)

/-- The opcodes of an operation, each with its mode, in the order of the opcode map. -/
def cellsOf (o : Operation) : List (Byte × Mode) :=
  (gridSamples.filter (·.operation = o)).map fun i => (i.opcode, i.mode)

theorem mem_cellsOf {o : Operation} {op : Byte} {m : Mode} :
    (op, m) ∈ cellsOf o ↔ decodeOpcode op = some (m, o) := by
  simp only [cellsOf, List.mem_map, List.mem_filter, decide_eq_true_eq, Prod.mk.injEq]
  constructor
  · rintro ⟨i, ⟨-, rfl⟩, rfl, rfl⟩
    exact decodeOpcode_opcode i
  · intro h
    obtain ⟨f, hf, hpair⟩ := Option.map_eq_some_iff.mp h
    cases hpair
    exact ⟨f.sample, ⟨sample_mem_gridSamples hf, rfl⟩, (formOf_fits hf).sample_opcode, rfl⟩

end Sys2Proof

namespace Sys2Proof.Machine

/-- An operation is encoded as any list of its cells, whatever the order. -/
theorem encodedAs_of_perm {o : Operation} {l : List (Byte × Mode)} (h : (cellsOf o).Perm l) : EncodedAs o l :=
  fun _ _ => mem_cellsOf.symm.trans h.mem_iff

/-! ### Executing an operation on its operand -/

/-- `exec_eq` where the operation is known, which selects its arm of `execOp`. -/
theorem exec_of_operation {i : Instr} {o : Operation} (h : i.operation = o) (s : State) :
    exec i s = execOp i.operand s o :=
  h ▸ exec_eq i s

/-! ### Loads -/

/-- Settles O24: the three loads are `withValue` on their operand, so its laws give the next state and the fault. -/
theorem loadsWriteRegisterAndNZ : Obligations.LoadsWriteRegisterAndNZ := by
  refine ⟨⟨encodedAs_of_perm (by decide), encodedAs_of_perm (by decide), encodedAs_of_perm (by decide)⟩,
    fun i s => ⟨fun v hv => ⟨setNZ s.p v, flagsWritten_setNZ s.p v, fun hlda => ?_, fun hldx => ?_, fun hldy => ?_⟩,
      fun f hf hload => ?_⟩⟩
  · rw [exec_of_operation hlda, execOp, loadA, withValue_ok hv]
    rfl
  · rw [exec_of_operation hldx, execOp, loadX, withValue_ok hv]
    rfl
  · rw [exec_of_operation hldy, execOp, loadY, withValue_ok hv]
    rfl
  · simp only [List.mem_cons, List.not_mem_nil, or_false] at hload
    rcases hload with hlda | hldx | hldy
    · rw [exec_of_operation hlda, execOp, loadA, withValue_error hf]
    · rw [exec_of_operation hldx, execOp, loadX, withValue_error hf]
    · rw [exec_of_operation hldy, execOp, loadY, withValue_error hf]

/-! ### Stores -/

/-- A write to a canonical memory changes one byte. -/
theorem bytesWritten_set {m : Memory} (h : m.wf = true) (a : Nat) (v : Byte) : BytesWritten m (m.set a v) [(a, v)] := by
  intro b
  rw [Memory.get_set h]
  split
  · next hb => simp [hb]
  · next hb => simp [List.lookup_cons, beq_false_of_ne hb]

/-- A store whose operand resolves, in a canonical memory: the frame, with the byte at the address written. -/
theorem storeByte_bytesWritten {m : MemOperand} {s : State} {r : Resolved} (hr : resolveMem s m = .ok r)
    (hwf : s.mem.wf = true) (v : Byte) :
    ∃ n, BytesWritten s.mem n [(r.ea, v)] ∧ storeByte v m s = .next { s with mem := n, pc := pcSeq s (.mem m) } :=
  ⟨s.mem.set r.ea v, bytesWritten_set hwf r.ea v, storeByte_ok hr v⟩

/-- A store whose operand does not resolve writes nothing: the resolver's fault is its answer (40_sequencer_addressing.md R73). -/
theorem storeByte_error {m : MemOperand} {s : State} {f : Fault} (h : resolveMem s m = .error f) (v : Byte) :
    storeByte v m s = .fault f :=
  withTarget_error h _

/-- Settles O25: each store is `storeByte` of its register on its operand. -/
theorem storesWriteOneByte : Obligations.StoresWriteOneByte := by
  refine ⟨⟨encodedAs_of_perm (by decide), encodedAs_of_perm (by decide), encodedAs_of_perm (by decide)⟩,
    fun i m s hop => ⟨fun r hr hwf => ⟨fun hsta => ?_, fun hstx => ?_, fun hsty => ?_⟩, fun f hf hstore => ?_⟩⟩
  · rw [exec_of_operation hsta, hop]
    exact storeByte_bytesWritten hr hwf s.a
  · rw [exec_of_operation hstx, hop]
    exact storeByte_bytesWritten hr hwf s.x
  · rw [exec_of_operation hsty, hop]
    exact storeByte_bytesWritten hr hwf s.y
  · simp only [List.mem_cons, List.not_mem_nil, or_false] at hstore
    rcases hstore with hsta | hstx | hsty
    · rw [exec_of_operation hsta, hop]
      exact storeByte_error hf s.a
    · rw [exec_of_operation hstx, hop]
      exact storeByte_error hf s.x
    · rw [exec_of_operation hsty, hop]
      exact storeByte_error hf s.y

/-! ### Transfers -/

/-- PC_seq of an instruction without an operand (40_sequencer_addressing.md R76). -/
theorem pcSeq_implied (s : State) : pcSeq s .implied = s.pc + 1 := pcSeq_eq s .implied

/-- Settles O26: each meaning is its register update on the advanced state, with `pcSeq_implied` and `flagsWritten_setNZ`. -/
theorem transfersCopyRegister : Obligations.TransfersCopyRegister := by
  refine ⟨⟨encodedAs_of_perm (by decide), encodedAs_of_perm (by decide), encodedAs_of_perm (by decide),
    encodedAs_of_perm (by decide), encodedAs_of_perm (by decide), encodedAs_of_perm (by decide)⟩, fun s => ?_⟩
  rw [← pcSeq_implied]
  exact ⟨⟨_, flagsWritten_setNZ s.p s.a, rfl⟩, ⟨_, flagsWritten_setNZ s.p s.a, rfl⟩, ⟨_, flagsWritten_setNZ s.p s.x, rfl⟩,
    ⟨_, flagsWritten_setNZ s.p s.y, rfl⟩, ⟨_, flagsWritten_setNZ s.p s.sp, rfl⟩, rfl⟩

end Sys2Proof.Machine
end

section
/-! SUPPORT and PROOFS of the family 42_arithmetic.md: what the adder returns, the subtraction it does on a complemented operand, and
what each arithmetic instruction, comparison, increment and decrement answers. -/

namespace Sys2Proof.Machine

/-! ### The adder -/

/-- What the adder's overflow test says of the three sign bits. -/
theorem signMask_ne_zero (a b r : Byte) :
    ((a ^^^ r) &&& (b ^^^ r) &&& 0x80#8) ≠ 0 ↔ a.msb = b.msb ∧ r.msb ≠ a.msb := by
  have hmask (x : Byte) : x &&& 0x80#8 ≠ 0 ↔ x.msb = true := by
    rw [show 0x80#8 = BitVec.twoPow 8 7 by decide, BitVec.and_twoPow, BitVec.msb_eq_getLsbD_last]
    split <;> simp_all
  rw [hmask, BitVec.msb_and, BitVec.msb_xor, BitVec.msb_xor]
  cases a.msb <;> cases b.msb <;> cases r.msb <;> decide

/-- The adder's overflow as R120 words it: both inputs have one sign and the result the other. -/
theorem add8_overflow_iff_signs (a b : Byte) (cin : Bool) :
    (add8 a b cin).overflow = true ↔ a.msb = b.msb ∧ (add8 a b cin).r.msb ≠ a.msb :=
  bne_iff_ne.trans (signMask_ne_zero a b _)

theorem add8_r_toNat (a b : Byte) (cin : Bool) :
    (add8 a b cin).r.toNat = (a.toNat + b.toNat + cin.toNat) % 256 :=
  BitVec.toNat_ofNat _ 8

/-- The adder's overflow as a signed sum out of range. -/
theorem add8_overflow (a b : Byte) (cin : Bool) :
    (add8 a b cin).overflow =
      decide (a.toInt + b.toInt + cin.toNat < -128 ∨ 127 < a.toInt + b.toInt + cin.toNat) := by
  have ha := a.isLt
  have hb := b.isLt
  have hc := cin.toNat_le
  have hr := add8_r_toNat a b cin
  rw [Bool.eq_iff_iff, add8_overflow_iff_signs, decide_eq_true_eq]
  simp only [BitVec.msb_eq_decide, BitVec.toInt_eq_toNat_cond, ne_eq, decide_eq_decide]
  omega

/-- Settles O27: the carry is its own definition, and the two readings of the overflow are `add8_overflow_iff_signs` and
`add8_overflow`. -/
theorem adderSumCarryOverflow : Obligations.AdderSumCarryOverflow := fun a b cin =>
  ⟨add8_r_toNat a b cin, decide_eq_true_iff, add8_overflow_iff_signs a b cin,
    by rw [add8_overflow, decide_eq_true_eq]⟩

/-! ### Subtraction through the adder -/

theorem add8_not_r (a v : Byte) (cin : Bool) :
    (add8 a (~~~v) cin).r = BitVec.ofInt 8 ((a.toNat : Int) - v.toNat - (1 - cin.toNat)) := by
  have hv := v.isLt
  apply BitVec.eq_of_toNat_eq
  rw [add8_r_toNat, BitVec.toNat_not, BitVec.toNat_ofInt]
  omega

/-- The carry out of a subtraction is the absence of a borrow. -/
theorem add8_not_carry (a v : Byte) (cin : Bool) :
    (add8 a (~~~v) cin).carry = decide (v.toNat + 1 ≤ a.toNat + cin.toNat) := by
  have hv := v.isLt
  simp only [add8, BitVec.toNat_not, decide_eq_decide]
  omega

/-- The complement negates a signed byte and takes one away. -/
theorem toInt_not_byte (v : Byte) : (~~~v).toInt = -v.toInt - 1 := by
  have hv := v.isLt
  simp only [BitVec.toInt_eq_toNat_cond, BitVec.toNat_not]
  omega

theorem add8_not_overflow (a v : Byte) (cin : Bool) :
    (add8 a (~~~v) cin).overflow =
      decide (a.toInt - v.toInt - (1 - cin.toNat) < -128 ∨ 127 < a.toInt - v.toInt - (1 - cin.toNat)) := by
  rw [add8_overflow, toInt_not_byte, decide_eq_decide]
  omega

/-! ### ADC and SBC -/

theorem flagsWritten_sumFlags (p : Byte) (t : Sum) :
    FlagsWritten p (sumFlags p t) ([(.c, t.carry), (.v, t.overflow)] ++ nzOf t.r) := by
  intro f
  simp only [sumFlags, getFlag_setNZ, getFlag_putFlag]
  cases f <;> rfl

theorem decimalRefused_iff (s : State) :
    decimalRefused s = true ↔ s.cfg.decimalMode = .refuse ∧ getFlag s.p .d = true := by
  simp [decimalRefused, State.flag]

/-- The addition on the state past the instruction, where decimal arithmetic is not refused (42_arithmetic.md R121, R122). -/
theorem addToA_advance {s : State} (h : ¬ (s.cfg.decimalMode = .refuse ∧ getFlag s.p .d = true)) (v : Byte) (o : Operand) :
    addToA v (s.advance o) = .next { s with
      a := (add8 s.a v (getFlag s.p .c)).r, p := sumFlags s.p (add8 s.a v (getFlag s.p .c)), pc := pcSeq s o } :=
  if_neg (mt (decimalRefused_iff _).mp h)

theorem addToA_advance_refused {s : State} (h : s.cfg.decimalMode = .refuse ∧ getFlag s.p .d = true) (v : Byte)
    (o : Operand) : addToA v (s.advance o) = .refused .decimalArithmetic :=
  if_pos ((decimalRefused_iff _).mpr h)

/-- Settles O28: ADC is `addToA` of the operand's value. -/
theorem adcAddsWithCarry : Obligations.AdcAddsWithCarry := by
  refine ⟨encodedAs_of_perm (by decide), fun i s hop => ?_⟩
  rw [exec_of_operation hop]
  refine ⟨fun v hv => ?_, fun f hf => withValue_error hf _⟩
  rw [execOp, addWithCarry, withValue_ok hv]
  refine ⟨fun h => ⟨_, _, rfl, ?_, addToA_advance h v i.operand⟩, fun h => addToA_advance_refused h v i.operand⟩
  rw [← add8_overflow]
  exact flagsWritten_sumFlags s.p (add8 s.a v (getFlag s.p .c))

/-- Settles O29: SBC is `addToA` of the complement of the operand's value, a subtraction by the `add8_not` lemmas. -/
theorem sbcSubtractsWithBorrow : Obligations.SbcSubtractsWithBorrow := by
  refine ⟨encodedAs_of_perm (by decide), fun i s hop => ?_⟩
  rw [exec_of_operation hop]
  refine ⟨fun v hv => ?_, fun f hf => withValue_error hf _⟩
  rw [execOp, subtractWithBorrow, withValue_ok hv]
  refine ⟨fun h => ⟨_, _, add8_not_r s.a v (getFlag s.p .c), ?_, addToA_advance h (~~~v) i.operand⟩,
    fun h => addToA_advance_refused h (~~~v) i.operand⟩
  rw [← add8_not_carry, ← add8_not_overflow]
  exact flagsWritten_sumFlags s.p (add8 s.a (~~~v) (getFlag s.p .c))

/-! ### Comparisons -/

/-- `compare` (42_arithmetic.md R123), its difference as the rule writes it. -/
theorem flagsWritten_compareFlags (p reg m : Byte) :
    FlagsWritten p (compareFlags p reg m) [(.c, decide (m.toNat ≤ reg.toNat)), (.z, decide (reg = m)),
      (.n, (BitVec.ofNat 8 (reg.toNat + 256 - m.toNat)).getLsbD 7)] := by
  have hdiff : BitVec.ofNat 8 (reg.toNat + 256 - m.toNat) = reg - m := by
    apply BitVec.eq_of_toNat_eq
    rw [BitVec.toNat_ofNat, BitVec.toNat_sub]
    omega
  have hzero : (reg - m == 0) = decide (reg = m) := by
    rw [Bool.eq_iff_iff, beq_iff_eq, sub_eq_zero, decide_eq_true_eq]
  intro f
  simp only [compareFlags, getFlag_setNZ, getFlag_putFlag, hdiff, hzero]
  cases f <;> rfl

/-- The three comparisons, each with its register (R124 to R126). -/
theorem exec_of_compare {i : Instr} {s : State} {reg : Byte}
    (h : (i.operation, reg) ∈ [(.cmp, s.a), (.cpx, s.x), (.cpy, s.y)]) : exec i s = compareWith reg i.operand s := by
  simp only [List.mem_cons, List.not_mem_nil, or_false, Prod.mk.injEq] at h
  obtain ⟨hop, rfl⟩ | ⟨hop, rfl⟩ | ⟨hop, rfl⟩ := h <;> exact exec_of_operation hop s

/-- Settles O30: each comparison is `compareWith` its register, so the laws of `withValue` give the next state and the fault. -/
theorem comparesSetFlagsOnly : Obligations.ComparesSetFlagsOnly := by
  refine ⟨⟨encodedAs_of_perm (by decide), encodedAs_of_perm (by decide), encodedAs_of_perm (by decide)⟩,
    fun i s => ⟨fun reg v hreg hv => ⟨_, flagsWritten_compareFlags s.p reg v, ?_⟩, fun f hf hop => ?_⟩⟩
  · rw [exec_of_compare hreg, compareWith, withValue_ok hv]
    rfl
  · obtain ⟨reg, hreg⟩ : ∃ reg, (i.operation, reg) ∈ [(.cmp, s.a), (.cpx, s.x), (.cpy, s.y)] := by
      simpa [exists_or] using hop
    rw [exec_of_compare hreg, compareWith, withValue_error hf]

/-! ### INC and DEC -/

theorem incByte_eq_ofNat (v : Byte) : incByte v = BitVec.ofNat 8 (v.toNat + 1) := by
  simp [incByte, BitVec.ofNat_add]

theorem decByte_eq_ofNat (v : Byte) : decByte v = BitVec.ofNat 8 (v.toNat + 255) := by
  simp [decByte, BitVec.ofNat_add]

/-- INC or DEC once the operand resolves, in a canonical memory: the frame, with the byte at the address rewritten. -/
theorem modifyMem_bytesWritten {m : MemOperand} {s : State} {r : Resolved} (hr : resolveMem s m = .ok r)
    (hwf : s.mem.wf = true) (f : Byte → Byte) :
    ∃ n q, BytesWritten s.mem n [(r.ea, f r.value)] ∧ FlagsWritten s.p q (nzOf (f r.value)) ∧
      modifyMem f m s = .next { s with mem := n, p := q, pc := pcSeq s (.mem m) } :=
  ⟨_, _, bytesWritten_set hwf r.ea _, flagsWritten_setNZ s.p _, modifyMem_ok hr f⟩

/-- INC or DEC whose operand does not resolve: the resolver's fault is its answer (40_sequencer_addressing.md R73). -/
theorem modifyMem_error {m : MemOperand} {s : State} {f : Fault} (h : resolveMem s m = .error f) (g : Byte → Byte) :
    modifyMem g m s = .fault f :=
  withTarget_error h _

/-- Settles O31: INC and DEC are `modifyMem` on their operand. -/
theorem incDecMemory : Obligations.IncDecMemory := by
  refine ⟨⟨encodedAs_of_perm (by decide), encodedAs_of_perm (by decide)⟩,
    fun i m s hm => ⟨fun r b hb hr hwf => ?_, fun f hf hop => ?_⟩⟩
  · simp only [List.mem_cons, List.not_mem_nil, or_false, Prod.mk.injEq] at hb
    obtain ⟨hinc, rfl⟩ | ⟨hdec, rfl⟩ := hb
    · rw [exec_of_operation hinc, hm, ← incByte_eq_ofNat]
      exact modifyMem_bytesWritten hr hwf incByte
    · rw [exec_of_operation hdec, hm, ← decByte_eq_ofNat]
      exact modifyMem_bytesWritten hr hwf decByte
  · simp only [List.mem_cons, List.not_mem_nil, or_false] at hop
    obtain hinc | hdec := hop
    · rw [exec_of_operation hinc, hm]
      exact modifyMem_error hf _
    · rw [exec_of_operation hdec, hm]
      exact modifyMem_error hf _

/-! ### INX, INY, DEX and DEY -/

/-- Settles O32: each meaning writes `incByte` or `decByte` of its register on the advanced state. -/
theorem incDecIndexRegister : Obligations.IncDecIndexRegister := by
  refine ⟨⟨encodedAs_of_perm (by decide), encodedAs_of_perm (by decide), encodedAs_of_perm (by decide),
    encodedAs_of_perm (by decide)⟩, fun s => ?_⟩
  rw [← pcSeq_implied]
  exact ⟨⟨_, _, incByte_eq_ofNat s.x, flagsWritten_setNZ s.p (incByte s.x), rfl⟩,
    ⟨_, _, incByte_eq_ofNat s.y, flagsWritten_setNZ s.p (incByte s.y), rfl⟩,
    ⟨_, _, decByte_eq_ofNat s.x, flagsWritten_setNZ s.p (decByte s.x), rfl⟩,
    ⟨_, _, decByte_eq_ofNat s.y, flagsWritten_setNZ s.p (decByte s.y), rfl⟩⟩

end Sys2Proof.Machine
end

section
/-! SUPPORT and PROOFS of the family 43_logical.md: what AND, ORA, EOR and BIT answer on their operand. -/

namespace Sys2Proof.Machine

/-! ### AND, ORA and EOR -/

/-- A logical operation whose operand resolves: the result in A, the flags of setNZ, and the state past the instruction. -/
theorem logicA_ok {o : Operand} {s : State} {v : Byte} (h : operandValue s o = .ok v) (g : Byte → Byte → Byte) :
    logicA g o s = .next { s with a := g s.a v, p := setNZ s.p (g s.a v), pc := pcSeq s o } :=
  withValue_ok h _

/-- A logical operation whose operand does not resolve: the resolver's fault is its answer (40_sequencer_addressing.md R73). -/
theorem logicA_error {o : Operand} {s : State} {f : Fault} (h : operandValue s o = .error f) (g : Byte → Byte → Byte) :
    logicA g o s = .fault f :=
  withValue_error h _

/-- Each of the three operations is `logicA` of a byte function that acts bit by bit (R140 to R142). -/
theorem exec_of_logical {i : Instr} {b : Bool → Bool → Bool}
    (h : (i.operation, b) ∈ [(.and, Bool.and), (.ora, Bool.or), (.eor, Bool.xor)]) (s : State) :
    ∃ g : Byte → Byte → Byte, (∀ x y k, (g x y).getLsbD k = b (x.getLsbD k) (y.getLsbD k)) ∧
      exec i s = logicA g i.operand s := by
  simp only [List.mem_cons, List.not_mem_nil, or_false, Prod.mk.injEq] at h
  obtain ⟨hand, rfl⟩ | ⟨hora, rfl⟩ | ⟨heor, rfl⟩ := h
  · exact ⟨_, fun _ _ _ => BitVec.getLsbD_and, exec_of_operation hand s⟩
  · exact ⟨_, fun _ _ _ => BitVec.getLsbD_or, exec_of_operation hora s⟩
  · exact ⟨_, fun _ _ _ => BitVec.getLsbD_xor, exec_of_operation heor s⟩

/-- Settles O33: each operation is `logicA` of a bitwise function, so its two laws give the next state and the fault. -/
theorem logicalOpsCombineWithA : Obligations.LogicalOpsCombineWithA := by
  refine ⟨⟨encodedAs_of_perm (by decide), encodedAs_of_perm (by decide), encodedAs_of_perm (by decide)⟩,
    fun i s => ⟨fun b v hb hv => ?_, fun f hf hop => ?_⟩⟩
  · obtain ⟨g, hbits, hexec⟩ := exec_of_logical hb s
    exact ⟨g s.a v, setNZ s.p (g s.a v), fun k _ => hbits s.a v k, flagsWritten_setNZ s.p (g s.a v),
      hexec.trans (logicA_ok hv g)⟩
  · obtain ⟨b, hb⟩ : ∃ b, (i.operation, b) ∈ [(.and, Bool.and), (.ora, Bool.or), (.eor, Bool.xor)] := by
      simpa [exists_or] using hop
    obtain ⟨g, -, hexec⟩ := exec_of_logical hb s
    exact hexec.trans (logicA_error hf g)

/-! ### BIT -/

/-- BIT writes exactly Z, N and V (R143). -/
theorem flagsWritten_bitFlags (p a m : Byte) :
    FlagsWritten p (bitFlags p a m) [(.z, decide (a &&& m = 0)), (.n, m.getLsbD 7), (.v, m.getLsbD 6)] := by
  intro f
  simp only [bitFlags, getFlag_putFlag]
  cases f <;> rfl

/-- Settles O34: BIT is `testBits` on its operand, whose only write besides PC is `bitFlags`. -/
theorem bitTestsOperand : Obligations.BitTestsOperand := by
  refine ⟨encodedAs_of_perm (by decide), fun i s hop => ?_⟩
  rw [exec_of_operation hop, execOp, testBits]
  exact ⟨fun v hv => ⟨bitFlags s.p s.a v, flagsWritten_bitFlags s.p s.a v, withValue_ok hv _⟩,
    fun f hf => withValue_error hf _⟩

end Sys2Proof.Machine
end

section
/-! SUPPORT and PROOFS of the family 44_shift_rotate.md: the four shifts as arithmetic on the byte and the old carry, and what a
shift of A and a shift of memory answer. -/

namespace Sys2Proof.Machine

/-! ### The four shifts as arithmetic -/

theorem shiftLeft_one_eq_ofNat (v : Byte) : v <<< 1 = BitVec.ofNat 8 (2 * v.toNat) := by
  apply BitVec.eq_of_toNat_eq
  rw [BitVec.toNat_shiftLeft, BitVec.toNat_ofNat, Nat.shiftLeft_eq, pow_one, Nat.mul_comm]

theorem ushiftRight_one_eq_ofNat (v : Byte) : v >>> 1 = BitVec.ofNat 8 (v.toNat / 2) := by
  have hv := v.isLt
  apply BitVec.eq_of_toNat_eq
  rw [BitVec.toNat_ushiftRight, BitVec.toNat_ofNat, Nat.shiftRight_eq_div_pow, pow_one]
  omega

/-- Setting a bit that is clear adds its power of two. -/
theorem or_twoPow_eq_add {x : Byte} {k : Nat} (h : x.getLsbD k = false) :
    x ||| BitVec.twoPow 8 k = x + BitVec.twoPow 8 k := by
  have hdisjoint : x &&& BitVec.twoPow 8 k = 0#8 := by simp [BitVec.and_twoPow, h]
  exact (BitVec.add_eq_or_of_and_eq_zero _ _ hdisjoint).symm

/-- ROL's result: bit 0 is clear after the shift, so putting the old carry there adds it (R153). -/
theorem shiftRol_r (v : Byte) (cin : Bool) : (shiftRol v cin).r = BitVec.ofNat 8 (2 * v.toNat + cin.toNat) := by
  cases cin with
  | false => exact BitVec.or_zero.trans (shiftLeft_one_eq_ofNat v)
  | true =>
    have hclear : (v <<< 1).getLsbD 0 = false := by simp
    calc v <<< 1 ||| 0x01#8
      _ = v <<< 1 + 0x01#8 := or_twoPow_eq_add hclear
      _ = BitVec.ofNat 8 (2 * v.toNat + 1) := by rw [shiftLeft_one_eq_ofNat, BitVec.ofNat_add]

/-- ROR's result: bit 7 is clear after the shift, so putting the old carry there adds 128 times it (R154). -/
theorem shiftRor_r (v : Byte) (cin : Bool) :
    (shiftRor v cin).r = BitVec.ofNat 8 (v.toNat / 2 + 128 * cin.toNat) := by
  cases cin with
  | false => exact BitVec.or_zero.trans (ushiftRight_one_eq_ofNat v)
  | true =>
    have hclear : (v >>> 1).getLsbD 7 = false := by simp
    calc v >>> 1 ||| 0x80#8
      _ = v >>> 1 + 0x80#8 := or_twoPow_eq_add hclear
      _ = BitVec.ofNat 8 (v.toNat / 2 + 128) := by rw [ushiftRight_one_eq_ofNat, BitVec.ofNat_add]

/-- The shift operations, each with its function (R151 to R154). -/
def shifts : List (Operation × (Byte → Bool → Shifted)) :=
  [(.asl, shiftAsl), (.lsr, shiftLsr), (.rol, shiftRol), (.ror, shiftRor)]

/-- Each shift's result and the bit it moves into C, as R151 to R154 write them. -/
theorem shifts_results (v : Byte) (cin : Bool) :
    shifts.map (fun x => (x.1, (x.2 v cin).r, (x.2 v cin).carry)) = [
      (.asl, BitVec.ofNat 8 (2 * v.toNat), v.getLsbD 7),
      (.lsr, BitVec.ofNat 8 (v.toNat / 2), v.getLsbD 0),
      (.rol, BitVec.ofNat 8 (2 * v.toNat + cin.toNat), v.getLsbD 7),
      (.ror, BitVec.ofNat 8 (v.toNat / 2 + 128 * cin.toNat), v.getLsbD 0)] := by
  rw [← shiftLeft_one_eq_ofNat, ← ushiftRight_one_eq_ofNat, ← shiftRol_r, ← shiftRor_r]
  rfl

/-! ### What a shift answers -/

/-- A shift writes exactly C, Z and N. -/
theorem flagsWritten_shiftFlags (p : Byte) (t : Shifted) : FlagsWritten p (shiftFlags p t) ((.c, t.carry) :: nzOf t.r) := by
  intro f
  simp only [shiftFlags, getFlag_setNZ, getFlag_putFlag]
  cases f <;> rfl

/-- A shift of A: the result in A, its flags, and the state past the instruction (R150). -/
theorem shiftA_eq (g : Byte → Bool → Shifted) (s : State) :
    shiftA g s = .next { s with
      a := (g s.a (getFlag s.p .c)).r, p := shiftFlags s.p (g s.a (getFlag s.p .c)), pc := pcSeq s .accumulator } :=
  withValue_ok rfl _

/-- A shift of memory whose operand does not resolve: the resolver's fault is its answer (40_sequencer_addressing.md R73). -/
theorem shiftMem_error {m : MemOperand} {s : State} {f : Fault} (h : resolveMem s m = .error f)
    (g : Byte → Bool → Shifted) : shiftMem g m s = .fault f :=
  withTarget_error h _

/-- Each shift is its function run on A or on memory, as the operand says. -/
theorem exec_of_shift {i : Instr} {g : Byte → Bool → Shifted} (h : (i.operation, g) ∈ shifts) (s : State) :
    exec i s = onShift (shiftA g s) (fun m => shiftMem g m s) i.operand := by
  simp only [shifts, List.mem_cons, List.not_mem_nil, or_false, Prod.mk.injEq] at h
  obtain ⟨hop, rfl⟩ | ⟨hop, rfl⟩ | ⟨hop, rfl⟩ | ⟨hop, rfl⟩ := h <;> exact exec_of_operation hop s

/-- Settles O35: a shift's result and carry are those of `shifts_results`; `shiftA_eq` is its next state on A, `shiftMem_ok` and
`shiftMem_error` are its next state and its fault on memory. -/
theorem shiftsRotateThroughCarry : Obligations.ShiftsRotateThroughCarry := by
  refine ⟨⟨encodedAs_of_perm (by decide), encodedAs_of_perm (by decide), encodedAs_of_perm (by decide),
    encodedAs_of_perm (by decide)⟩, fun i s => ⟨fun v r c hresult => ?_, fun m f hm hf hop => ?_⟩⟩
  · rw [← shifts_results, List.mem_map] at hresult
    obtain ⟨⟨o, g⟩, hg, heq⟩ := hresult
    cases heq
    refine ⟨shiftFlags s.p (g v (getFlag s.p .c)), flagsWritten_shiftFlags _ _, fun hacc hv => ?_,
      fun m ea hm hr hwf => ⟨s.mem.set ea (g v (getFlag s.p .c)).r, bytesWritten_set hwf ea _, ?_⟩⟩
    · rw [exec_of_shift hg, hacc, hv]
      exact shiftA_eq g s
    · rw [exec_of_shift hg, hm]
      exact shiftMem_ok hr g
  · obtain ⟨⟨o, g⟩, hg, rfl⟩ : ∃ x ∈ shifts, x.1 = i.operation := List.mem_map.mp hop
    rw [exec_of_shift hg, hm]
    exact shiftMem_error hf g

end Sys2Proof.Machine
end

section
/-! SUPPORT and PROOFS of the family 45_branch.md: a branch's target as the integer sum of PC_seq and the offset, what a branch
taken and one not taken answer, and the flag and value each of the eight looks at. -/

namespace Sys2Proof.Machine

/-- The target of a branch: adding the sign-extended offset is the integer sum mod 65536. -/
theorem add_signExtend16 (w : Word) (d : Byte) : w + signExtend16 d = BitVec.ofInt 16 (w.toNat + d.toInt) := by
  rw [signExtend16, BitVec.signExtend, BitVec.ofInt_add, BitVec.ofInt_natCast, BitVec.ofNat_toNat, BitVec.setWidth_eq]

theorem branchIf_taken {f : Flag} {want : Bool} {s : State} (h : getFlag s.p f = want) (d : Byte) :
    branchIf f want d s =
      .next { s with pc := BitVec.ofInt 16 ((pcSeq s (.immediate d)).toNat + d.toInt) } := by
  rw [branchIf, withValue_ok rfl, State.flag_advance, if_pos h, State.advance_pc, add_signExtend16]
  rfl

theorem branchIf_not_taken {f : Flag} {want : Bool} {s : State} (h : getFlag s.p f ≠ want) (d : Byte) :
    branchIf f want d s = .next { s with pc := pcSeq s (.immediate d) } := by
  rw [branchIf, withValue_ok rfl, State.flag_advance, if_neg h]
  rfl

/-- The eight branches with offset `d`, each with its flag and the value that takes it (R161 to R168). -/
def branches (d : Byte) : List (Instr × Flag × Bool) :=
  [(.bpl d, .n, false), (.bmi d, .n, true), (.bvc d, .v, false), (.bvs d, .v, true),
    (.bcc d, .c, false), (.bcs d, .c, true), (.bne d, .z, false), (.beq d, .z, true)]

/-- Each branch is the common rule (R160) on its flag and value. -/
theorem exec_of_branch {i : Instr} {f : Flag} {want : Bool} {d : Byte} (h : (i, f, want) ∈ branches d) (s : State) :
    exec i s = branchIf f want d s := by
  simp only [branches, List.mem_cons, List.not_mem_nil, or_false, Prod.mk.injEq] at h
  obtain ⟨rfl, rfl, rfl⟩ | ⟨rfl, rfl, rfl⟩ | ⟨rfl, rfl, rfl⟩ | ⟨rfl, rfl, rfl⟩ | ⟨rfl, rfl, rfl⟩ | ⟨rfl, rfl, rfl⟩ |
    ⟨rfl, rfl, rfl⟩ | ⟨rfl, rfl, rfl⟩ := h <;> exact exec_eq _ s

/-- Settles O36: PC_seq is what `registerModesResolve` says of Immediate mode, and each branch is the common rule, taken or not. -/
theorem branchesAddSignedOffset : Obligations.BranchesAddSignedOffset := by
  refine ⟨⟨encodedAs_of_perm (by decide), encodedAs_of_perm (by decide), encodedAs_of_perm (by decide),
    encodedAs_of_perm (by decide), encodedAs_of_perm (by decide), encodedAs_of_perm (by decide),
    encodedAs_of_perm (by decide), encodedAs_of_perm (by decide)⟩, fun d s ⟨i, f, want⟩ hx => ?_⟩
  obtain ⟨-, -, himmediate⟩ := registerModesResolve s
  obtain ⟨-, hone, htwo, -⟩ := himmediate d
  have hexec : exec i s = branchIf f want d s := exec_of_branch hx s
  exact ⟨pcSeq s (.immediate d), hone, htwo, fun htaken => hexec.trans (branchIf_taken htaken d),
    fun hnot => hexec.trans (branchIf_not_taken hnot d)⟩

end Sys2Proof.Machine
end

section
/-! SUPPORT and PROOFS of the family 46_jump_subroutine_break.md: an operation that makes some accesses in order and so answers a
value or the first of them out of range, the stack and vector operations as such, and what JMP, JSR, RTS, BRK and RTI answer. -/

namespace Sys2Proof.Machine

/-! ### Accesses in order -/

/-- A value that needs the listed addresses: the first of them that a memory of `size` bytes does not have is the fault
(60_exceptions.md R205). -/
def accessing {α : Type} (size : Nat) (l : List Nat) (v : α) : Except Fault α :=
  match firstOut size l with
  | none => .ok v
  | some a => .error (.outOfBounds a)

@[simp] theorem accessing_nil {α : Type} (size : Nat) (v : α) : accessing size [] v = .ok v := rfl

/-- The first access is checked before the others. -/
theorem accessing_cons {α : Type} (size a : Nat) (l : List Nat) (v : α) :
    accessing size (a :: l) v = if a < size then accessing size l v else .error (.outOfBounds a) := by
  split
  · next h => simp [accessing, firstOut, h]
  · next h => simp [accessing, firstOut, Nat.le_of_not_lt h]

/-- Accesses that follow others come after them in the list. -/
theorem accessing_bind {α β : Type} {size : Nat} {l l' : List Nat} {v : α} {w : β} {k : α → Except Fault β}
    (h : k v = accessing size l' w) : (accessing size l v).bind k = accessing size (l ++ l') w := by
  induction l with
  | nil => exact h
  | cons a l ih =>
    rw [List.cons_append, accessing_cons, accessing_cons, ← ih]
    split <;> rfl

theorem accessing_map {α β : Type} (size : Nat) (l : List Nat) (v : α) (g : α → β) :
    (accessing size l v).map g = accessing size l (g v) := by
  unfold accessing
  cases firstOut size l <;> rfl

/-- The outcome of accesses in order: the next state when all are in memory, and else the first bad one's fault. -/
theorem outcome_of_accessing {out : Out} {size : Nat} {l : List Nat} {t : State} (h : out = finish (accessing size l t)) :
    (firstOut size l = none → out = .next t) ∧ ∀ a, firstOut size l = some a → out = .fault (.outOfBounds a) := by
  subst h
  exact ⟨fun hnone => by rw [accessing, hnone, finish_ok], fun a hsome => by rw [accessing, hsome, finish_error]⟩

/-! ### The operations that access memory in order -/

theorem memReadWord_accessing (s : State) (a : Nat) :
    memReadWord s a = accessing s.cfg.memSize [a, a + 1] (joinBytes (s.mem.get (a + 1)) (s.mem.get a)) := by
  rw [accessing_cons, accessing_cons, accessing_nil, memReadWord, memRead, memRead]
  by_cases hlo : a < s.cfg.memSize
  · by_cases hhi : a + 1 < s.cfg.memSize
    · simp only [hlo, hhi, if_true]
    · simp only [hlo, hhi, if_true, if_false]
  · simp only [hlo, if_false]

theorem push_accessing (v : Byte) (s : State) :
    push v s = accessing s.cfg.memSize [stackAddr s.sp]
      { s with mem := s.mem.set (stackAddr s.sp) v, sp := s.sp - 1 } := by
  rw [push_eq, accessing_cons, accessing_nil, BitVec.sub_eq_add_neg]
  rfl

theorem pull_accessing (s : State) :
    pull s = accessing s.cfg.memSize [stackAddr (s.sp + 1)]
      (s.mem.get (stackAddr (s.sp + 1)), { s with sp := s.sp + 1 }) := by
  rw [accessing_cons, accessing_nil]
  exact pull_eq s

/-- Two pushes, the high byte first. -/
theorem pushWord_accessing (w : Word) (s : State) :
    pushWord w s = accessing s.cfg.memSize [stackAddr s.sp, stackAddr (s.sp - 1)]
      { s with
        mem := (s.mem.set (stackAddr s.sp) (hiByte w)).set (stackAddr (s.sp - 1)) (loByte w), sp := s.sp - 2 } := by
  have hone : s.sp - 1 = s.sp + 255#8 := by bv_omega
  have htwo : s.sp - 2 = s.sp + 255#8 + 255#8 := by bv_omega
  rw [accessing_cons, accessing_cons, accessing_nil, hone, htwo]
  exact pushWord_eq w s

/-- Two pulls, the low byte first. -/
theorem pullWord_accessing (s : State) :
    pullWord s = accessing s.cfg.memSize [stackAddr (s.sp + 1), stackAddr (s.sp + 2)]
      (joinBytes (s.mem.get (stackAddr (s.sp + 2))) (s.mem.get (stackAddr (s.sp + 1))), { s with sp := s.sp + 2 }) := by
  have htwo : s.sp + 2 = s.sp + 1#8 + 1#8 := by bv_omega
  rw [accessing_cons, accessing_cons, accessing_nil, htwo]
  exact pullWord_eq s

/-! ### Words and their bytes as numbers -/

theorem hiByte_eq_ofNat (w : Word) : hiByte w = BitVec.ofNat 8 (w.toNat / 256) := by
  rw [← toNat_hiByte, BitVec.ofNat_toNat, BitVec.setWidth_eq]

theorem loByte_eq_ofNat (w : Word) : loByte w = BitVec.ofNat 8 w.toNat := by
  apply BitVec.eq_of_toNat_eq
  rw [toNat_loByte, BitVec.toNat_ofNat]

theorem joinBytes_eq_ofNat (hi lo : Byte) : joinBytes hi lo = BitVec.ofNat 16 (256 * hi.toNat + lo.toNat) := by
  rw [← toNat_joinBytes, BitVec.ofNat_toNat, BitVec.setWidth_eq]

/-! ### What is written -/

/-- Writing one flag writes no other. -/
theorem flagsWritten_putFlag (p : Byte) (f : Flag) (v : Bool) : FlagsWritten p (putFlag p f v) [(f, v)] := by
  intro g
  rw [getFlag_putFlag]
  split
  · next hg => simp [hg]
  · next hg => simp [List.lookup_cons, beq_false_of_ne hg]

/-- One more byte written, at an address not written before. -/
theorem BytesWritten.set {m n : Memory} {w : List (Nat × Byte)} (h : BytesWritten m n w) (hwf : n.wf = true) {a : Nat}
    (ha : w.lookup a = none) (v : Byte) : BytesWritten m (n.set a v) (w ++ [(a, v)]) := by
  intro b
  rw [Memory.get_set hwf, List.lookup_append]
  split
  · next hb => simp [hb, ha]
  · next hb => simp [List.lookup_cons, beq_false_of_ne hb, h b]

/-- What two pushes of a word leave in a canonical memory. -/
theorem bytesWritten_pushWord {m : Memory} (hwf : m.wf = true) (sp : Byte) (w : Word) :
    BytesWritten m ((m.set (stackAddr sp) (hiByte w)).set (stackAddr (sp - 1)) (loByte w))
      [(stackAddr sp, BitVec.ofNat 8 (w.toNat / 256)), (stackAddr (sp - 1), BitVec.ofNat 8 w.toNat)] := by
  have hne : stackAddr (sp - 1) ≠ stackAddr sp := stackAddr_inj.not.mpr (by bv_omega)
  rw [← hiByte_eq_ofNat, ← loByte_eq_ofNat]
  exact (bytesWritten_set hwf _ _).set (Memory.wf_set hwf _ _) (by simpa [List.lookup_eq_none_iff] using hne) _

/-! ### JMP -/

/-- A jump's operand resolves to the number of some word: it is a word, or the word its pointer holds (R170). -/
theorem jmp_target {i : Instr} {m : MemOperand} {s : State} {r : Resolved} (hop : i.operation = .jmp) (hm : i.operand = .mem m)
    (hr : resolveMem s m = .ok r) : ∃ w : Word, w.toNat = r.ea := by
  obtain ⟨hea, -⟩ := resolveMem_eq_ok.mp hr
  cases i <;> cases hop <;> cases hm
  case jmpAbsolute a => exact ⟨a, Except.ok.inj hea⟩
  case jmpIndirect p =>
    obtain ⟨w, -, hw⟩ := exceptMap_eq_ok.mp hea
    exact ⟨w, hw⟩

/-- Settles O37: JMP is `jumpTo` its operand, whose address is a word by `jmp_target`. -/
theorem jmpSetsPcToEffectiveAddress : Obligations.JmpSetsPcToEffectiveAddress := by
  refine ⟨encodedAs_of_perm (by decide), fun i m s hop hm => ?_⟩
  rw [exec_of_operation hop, hm, execOp, onMem, jumpTo]
  refine ⟨fun r hr => ?_, fun f hf => withTarget_error hf _⟩
  obtain ⟨w, hw⟩ := jmp_target hop hm hr
  refine ⟨w, hw, ?_⟩
  rw [withTarget_ok hr, ← hw, BitVec.ofNat_toNat, BitVec.setWidth_eq]
  rfl

/-! ### JSR and RTS -/

theorem exec_jsr (a : Word) (s : State) : exec (.jsr a) s = callSubroutine (.absolute a) s := exec_eq (.jsr a) s

/-- JSR whose operand resolves: two pushes of the address of its last byte, and PC at the operand (R171). -/
theorem exec_jsr_accessing {a : Word} {s : State} {r : Resolved} (hr : resolveMem s (.absolute a) = .ok r) :
    exec (.jsr a) s = finish (accessing s.cfg.memSize [stackAddr s.sp, stackAddr (s.sp - 1)]
      { s with
        mem := (s.mem.set (stackAddr s.sp) (hiByte (s.pc + 2))).set (stackAddr (s.sp - 1)) (loByte (s.pc + 2))
        sp := s.sp - 2, pc := a }) := by
  obtain ⟨hea, -⟩ := resolveMem_eq_ok.mp hr
  have hpc : BitVec.ofNat 16 r.ea = a := by
    rw [← Except.ok.inj hea, BitVec.ofNat_toNat, BitVec.setWidth_eq]
  obtain ⟨hseq, -⟩ := wordOperand_fetched (m := .absolute a) rfl s
  have hret : (s.advance (.mem (.absolute a))).pc + 65535#16 = s.pc + 2 := by
    rw [State.advance_pc, hseq]
    bv_omega
  rw [exec_jsr, callSubroutine, withTarget_ok hr, hret, hpc, pushWord_accessing, accessing_map]
  rfl

/-- Settles O38: `exec_jsr_accessing` gives the next state and the stack's fault, `bytesWritten_pushWord` the bytes. -/
theorem jsrPushesReturnAddress : Obligations.JsrPushesReturnAddress := by
  refine ⟨encodedAs_of_perm (by decide), fun a s => ⟨fun r hr => ?_, fun f hf => ?_⟩⟩
  · obtain ⟨hnext, hfault⟩ := outcome_of_accessing (exec_jsr_accessing hr)
    exact ⟨fun hwf hin => ⟨_, bytesWritten_pushWord hwf s.sp (s.pc + 2), hnext hin⟩, hfault⟩
  · rw [exec_jsr, callSubroutine, withTarget_error hf]

/-- RTS: two pulls, and PC at the address they make plus one (R172). -/
theorem exec_rts_accessing (s : State) :
    exec .rts s = finish (accessing s.cfg.memSize [stackAddr (s.sp + 1), stackAddr (s.sp + 2)]
      { s with
        sp := s.sp + 2
        pc := joinBytes (s.mem.get (stackAddr (s.sp + 2))) (s.mem.get (stackAddr (s.sp + 1))) + 1#16 }) := by
  have hexec : exec .rts s = finish (returnFromSubroutine (s.advance .implied)) := exec_eq .rts s
  rw [hexec, returnFromSubroutine, pullWord_accessing, accessing_map]
  rfl

/-- Settles O39: `exec_rts_accessing`, with the pulled address as a number. -/
theorem rtsPullsReturnAddress : Obligations.RtsPullsReturnAddress := by
  refine ⟨encodedAs_of_perm (by decide), fun s => ?_⟩
  have hexec := exec_rts_accessing s
  rw [joinBytes_eq_ofNat, ← BitVec.ofNat_add] at hexec
  exact outcome_of_accessing hexec

/-! ### BRK -/

/-- A push leaves every byte above the stack page alone, the BRK vector among them (20_memory.md R41). -/
theorem Memory.get_set_stackAddr {a : Nat} (ha : 0x200 ≤ a) (m : Memory) (sp v : Byte) :
    (m.set (stackAddr sp) v).get a = m.get a := by
  obtain ⟨-, hstack⟩ := stackAddr_range sp
  exact Memory.get_set_ne m v (by omega)

theorem takeBreak_eq_bind (ret : Word) (s : State) :
    takeBreak ret s = (pushWord ret s).bind fun t => (push (pushedStatus t.p) t).bind fun u =>
      (memReadWord u brkVector).map fun target => (u.setFlag .i true).setPc target := by
  unfold takeBreak
  cases pushWord ret s with
  | error f => rfl
  | ok t =>
    dsimp only [Except.bind]
    cases push (pushedStatus t.p) t with
    | error f => rfl
    | ok u =>
      dsimp only
      cases memReadWord u brkVector <;> rfl

/-- Entering the handler: three pushes, then PC from the vector, which is as it was before them (R209). -/
theorem takeBreak_accessing (ret : Word) (s : State) :
    takeBreak ret s = accessing s.cfg.memSize
      [stackAddr s.sp, stackAddr (s.sp - 1), stackAddr (s.sp - 2), brkVector, brkVector + 1]
      { s with
        mem := ((s.mem.set (stackAddr s.sp) (hiByte ret)).set (stackAddr (s.sp - 1)) (loByte ret)).set
          (stackAddr (s.sp - 2)) (pushedStatus s.p)
        sp := s.sp - 3, p := putFlag s.p .i true
        pc := joinBytes (s.mem.get (brkVector + 1)) (s.mem.get brkVector) } := by
  have hsp : s.sp - 3 = s.sp - 2 - 1 := by bv_omega
  have hlo : 0x200 ≤ brkVector := by decide
  have hhi : 0x200 ≤ brkVector + 1 := by decide
  rw [takeBreak_eq_bind, pushWord_accessing, hsp]
  refine accessing_bind (l' := [_, _, _]) ?_
  rw [push_accessing]
  refine accessing_bind (l' := [_, _]) ?_
  rw [memReadWord_accessing, accessing_map]
  simp only [Memory.get_set_stackAddr hlo, Memory.get_set_stackAddr hhi]
  rfl

/-- What BRK's three pushes leave in a canonical memory. -/
theorem bytesWritten_brk {m : Memory} (hwf : m.wf = true) (sp : Byte) (ret : Word) (v : Byte) :
    BytesWritten m
      (((m.set (stackAddr sp) (hiByte ret)).set (stackAddr (sp - 1)) (loByte ret)).set (stackAddr (sp - 2)) v)
      [(stackAddr sp, BitVec.ofNat 8 (ret.toNat / 256)), (stackAddr (sp - 1), BitVec.ofNat 8 ret.toNat),
        (stackAddr (sp - 2), v)] := by
  have hzero : stackAddr (sp - 2) ≠ stackAddr sp := stackAddr_inj.not.mpr (by bv_omega)
  have hone : stackAddr (sp - 2) ≠ stackAddr (sp - 1) := stackAddr_inj.not.mpr (by bv_omega)
  exact (bytesWritten_pushWord hwf sp ret).set (Memory.wf_set (Memory.wf_set hwf _ _) _ _)
    (by simpa [List.lookup_eq_none_iff] using ⟨hzero, hone⟩) v

/-- Settles O40: BRK is `takeBreak` of PC + 2; `bytesWritten_brk` gives the bytes and `flagsWritten_putFlag` the flag. -/
theorem brkEntersHandler : Obligations.BrkEntersHandler := by
  refine ⟨encodedAs_of_perm (by decide), fun s => ?_⟩
  have hret : (s.advance .implied).pc + 1#16 = s.pc + 2 := by
    rw [State.advance_pc, pcSeq_implied]
    bv_omega
  have hexec : exec .brk s = finish (takeBreak ((s.advance .implied).pc + 1#16) (s.advance .implied)) := exec_eq .brk s
  rw [hret, takeBreak_accessing, joinBytes_eq_ofNat] at hexec
  obtain ⟨hnext, hfault⟩ := outcome_of_accessing hexec
  exact ⟨fun hwf hin => ⟨_, _, bytesWritten_brk hwf s.sp (s.pc + 2) (pushedStatus s.p), flagsWritten_putFlag s.p .i true,
    hnext hin⟩, hfault⟩

/-! ### RTI -/

/-- Returning from the handler: three pulls, P from the first and PC from the other two (R210). -/
theorem returnFromBreak_accessing (s : State) :
    returnFromBreak s = accessing s.cfg.memSize [stackAddr (s.sp + 1), stackAddr (s.sp + 2), stackAddr (s.sp + 3)]
      { s with
        p := pulledStatus (s.mem.get (stackAddr (s.sp + 1))), sp := s.sp + 3
        pc := joinBytes (s.mem.get (stackAddr (s.sp + 3))) (s.mem.get (stackAddr (s.sp + 2))) } := by
  have hbind : returnFromBreak s = (pull s).bind fun bt =>
      (pullWord (bt.2.setP (pulledStatus bt.1))).map fun wu => wu.2.setPc wu.1 := by
    unfold returnFromBreak
    cases pull s with
    | error f => rfl
    | ok bt =>
      dsimp only [Except.bind]
      cases pullWord (bt.2.setP (pulledStatus bt.1)) <;> rfl
  have htwo : s.sp + 2 = s.sp + 1 + 1 := by bv_omega
  have hthree : s.sp + 3 = s.sp + 1 + 2 := by bv_omega
  rw [hbind, pull_accessing, htwo, hthree]
  refine accessing_bind (l' := [_, _]) ?_
  rw [pullWord_accessing]
  exact accessing_map _ _ _ _

/-- Settles O41: RTI is `returnFromBreak`, with the pulled address as a number. -/
theorem rtiRestoresStatusAndPc : Obligations.RtiRestoresStatusAndPc := by
  refine ⟨encodedAs_of_perm (by decide), fun s => ?_⟩
  have hexec : exec .rti s = finish (returnFromBreak (s.advance .implied)) := exec_eq .rti s
  rw [returnFromBreak_accessing, joinBytes_eq_ofNat] at hexec
  exact outcome_of_accessing hexec

end Sys2Proof.Machine
end

section
/-! SUPPORT and PROOFS of the family 47_stack.md: an operation that makes one access, and what push and pull, PHA and PHP, PLA and
PLP answer as such operations. -/

namespace Sys2Proof.Machine

/-! ### One access -/

theorem accessing_one_of_lt {α : Type} {size a : Nat} (h : a < size) (v : α) : accessing size [a] v = .ok v := by
  rw [accessing_cons, if_pos h, accessing_nil]

theorem accessing_one_of_le {α : Type} {size a : Nat} (h : size ≤ a) (v : α) :
    accessing size [a] v = .error (.outOfBounds a) := by
  rw [accessing_cons, if_neg (Nat.not_lt.mpr h)]

/-- The outcome of one access: the next state when its address is in memory, and else the address's fault. -/
theorem outcome_of_accessing_one {out : Out} {size a : Nat} {t : State} (h : out = finish (accessing size [a] t)) :
    (a < size → out = .next t) ∧ (size ≤ a → out = .fault (.outOfBounds a)) := by
  subst h
  exact ⟨fun hin => by rw [accessing_one_of_lt hin, finish_ok], fun hout => by rw [accessing_one_of_le hout, finish_error]⟩

/-! ### push and pull -/

/-- Settles O42: each primitive makes one access (`push_accessing`, `pull_accessing`), and a push writes one byte. -/
theorem pushAndPullPrimitives : Obligations.PushAndPullPrimitives := by
  intro s
  refine ⟨fun v => ⟨fun hwf hin => ?_, fun hout => ?_⟩, fun hin => ?_, fun hout => ?_⟩
  · exact ⟨_, bytesWritten_set hwf (stackAddr s.sp) v, (push_accessing v s).trans (accessing_one_of_lt hin _)⟩
  · exact (push_accessing v s).trans (accessing_one_of_le hout _)
  · exact (pull_accessing s).trans (accessing_one_of_lt hin _)
  · exact (pull_accessing s).trans (accessing_one_of_le hout _)

/-! ### PHA and PHP -/

/-- The two pushing instructions, each with the byte it pushes (R181, R182). -/
def pushers (s : State) : List (Instr × Byte) := [(.pha, s.a), (.php, pushedStatus s.p)]

/-- PHA and PHP are a push on the advanced state, of a byte that advancing leaves alone. -/
theorem exec_of_pusher {i : Instr} {s : State} {v : Byte} (h : (i, v) ∈ pushers s) :
    exec i s = finish (push v (s.advance .implied)) := by
  simp only [pushers, List.mem_cons, List.not_mem_nil, or_false, Prod.mk.injEq] at h
  obtain ⟨rfl, rfl⟩ | ⟨rfl, rfl⟩ := h <;> exact exec_eq _ s

theorem exec_pusher_accessing {i : Instr} {s : State} {v : Byte} (h : (i, v) ∈ pushers s) :
    exec i s = finish (accessing s.cfg.memSize [stackAddr s.sp]
      { s with mem := s.mem.set (stackAddr s.sp) v, sp := s.sp - 1, pc := s.pc + 1 }) := by
  rw [exec_of_pusher h, push_accessing, ← pcSeq_implied]
  rfl

/-- Settles O43: `exec_pusher_accessing` gives the next state and the fault, `bytesWritten_set` the byte. -/
theorem phaPhpPushOneByte : Obligations.PhaPhpPushOneByte := by
  refine ⟨⟨encodedAs_of_perm (by decide), encodedAs_of_perm (by decide)⟩, fun s ⟨i, v⟩ hx => ?_⟩
  obtain ⟨hnext, hfault⟩ := outcome_of_accessing_one (exec_pusher_accessing hx)
  exact ⟨fun hwf hin => ⟨_, bytesWritten_set hwf (stackAddr s.sp) v, hnext hin⟩, hfault⟩

/-! ### PLA and PLP -/

/-- A pull that feeds a register write makes the pull's access. -/
theorem pullInto_accessing (k : Byte → State → State) (s : State) :
    pullInto k s = accessing s.cfg.memSize [stackAddr (s.sp + 1)]
      (k (s.mem.get (stackAddr (s.sp + 1))) { s with sp := s.sp + 1 }) := by
  rw [pullInto, pull_accessing, accessing_map]

/-- PLA: one pull, into A and the flags of setNZ (R183). -/
theorem exec_pla_accessing (s : State) :
    exec .pla s = finish (accessing s.cfg.memSize [stackAddr (s.sp + 1)]
      { s with
        a := s.mem.get (stackAddr (s.sp + 1)), p := setNZ s.p (s.mem.get (stackAddr (s.sp + 1)))
        sp := s.sp + 1, pc := s.pc + 1 }) := by
  rw [← pcSeq_implied]
  exact (exec_eq .pla s).trans (congrArg finish (pullInto_accessing _ (s.advance .implied)))

/-- PLP: one pull, into P with bits 5:4 cleared (R184). -/
theorem exec_plp_accessing (s : State) :
    exec .plp s = finish (accessing s.cfg.memSize [stackAddr (s.sp + 1)]
      { s with p := pulledStatus (s.mem.get (stackAddr (s.sp + 1))), sp := s.sp + 1, pc := s.pc + 1 }) := by
  rw [← pcSeq_implied]
  exact (exec_eq .plp s).trans (congrArg finish (pullInto_accessing _ (s.advance .implied)))

/-- Settles O44: both make one access, by `exec_pla_accessing` and `exec_plp_accessing`; `flagsWritten_setNZ` gives PLA's flags. -/
theorem plaPlpPullOneByte : Obligations.PlaPlpPullOneByte := by
  refine ⟨⟨encodedAs_of_perm (by decide), encodedAs_of_perm (by decide)⟩, fun s => ?_⟩
  obtain ⟨hplaNext, hplaFault⟩ := outcome_of_accessing_one (exec_pla_accessing s)
  obtain ⟨hplpNext, hplpFault⟩ := outcome_of_accessing_one (exec_plp_accessing s)
  exact ⟨fun hin => ⟨_, rfl, ⟨_, flagsWritten_setNZ s.p _, hplaNext hin⟩, hplpNext hin⟩, fun hout =>
    List.forall_mem_cons.mpr ⟨hplaFault hout, List.forall_mem_singleton.mpr (hplpFault hout)⟩⟩

end Sys2Proof.Machine
end

section
/-! SUPPORT and PROOFS of the family 30_encoding.md, continued: decoding what was encoded, what decoded bytes begin with, and the
opcode map against the table by mnemonic. -/

namespace Sys2Proof

/-! ### Decoding an encoding -/

/-- The cell at an instruction's opcode makes that instruction again from its operand bytes, whatever follows them: the one split over
the constructors, in each of which the cell evaluates and a word operand is its two bytes joined. -/
theorem formOf_opcode (i : Instr) (rest : List Byte) :
    ∃ f, formOf i.opcode = some f ∧ f.decodeOperand (i.operand.bytes ++ rest) = .ok i := by
  cases i <;>
    simp only [Instr.opcode] <;>
    refine ⟨_, rfl, ?_⟩ <;>
    simp [Form.decodeOperand, Instr.operand, Operand.bytes, MemOperand.bytes]

/-- Settles O7: the operand is `formOf_opcode`, and what is skipped after the opcode is the operand's bytes with their pad. -/
theorem decodeOfEncodeIsIdentity : Obligations.DecodeOfEncodeIsIdentity := by
  intro w i rest
  obtain ⟨f, hform, hoperand⟩ := formOf_opcode i (padBytes w i.operand ++ rest)
  have hskip : (i.operand.bytes ++ (padBytes w i.operand ++ rest)).drop (modeWidth w i.mode) = rest := by
    rw [← List.append_assoc, Instr.mode, ← i.operand.length_bytes_add_padBytes w, ← List.length_append, List.drop_left]
  simp [encode, Instr.bytes, decode, hform, hoperand, hskip]

/-! ### What decoded bytes begin with -/

/-- Decoding succeeds exactly when the opcode is defined and its form's operand is there (30_encoding.md R50, R55). -/
theorem decode_eq_ok {w : ImmWidth} {bytes rest : List Byte} {i : Instr} :
    decode w bytes = .ok (i, rest) ↔ ∃ op bs f, bytes = op :: bs ∧ formOf op = some f ∧ f.decodeOperand bs = .ok i ∧
      rest = bs.drop (modeWidth w i.mode) := by
  cases bytes with
  | nil => simp [decode]
  | cons op bs =>
    cases hform : formOf op with
    | none => simp [decode, hform]
    | some f =>
      cases hoperand : f.decodeOperand bs with
      | error e => simp [decode, hform, hoperand]
      | ok j =>
        simp only [decode, hform, hoperand, Except.ok.injEq, Prod.mk.injEq]
        constructor
        · rintro ⟨rfl, rfl⟩
          exact ⟨op, bs, f, rfl, hform, hoperand, rfl⟩
        · rintro ⟨op', bs', f', hbytes, hform', hoperand', rfl⟩
          cases hbytes
          cases hform.symm.trans hform'
          cases hoperand.symm.trans hoperand'
          exact ⟨rfl, rfl⟩

/-- A form's operand begins the bytes it was decoded from, and the instruction has the cell's opcode. -/
theorem Form.Fits.of_decodeOperand {op : Byte} {f : Form} (hfits : f.Fits op) {bs : List Byte} {i : Instr}
    (h : f.decodeOperand bs = .ok i) : i.opcode = op ∧ i.operand.bytes <+: bs := by
  cases f with
  | bare j =>
    cases h
    obtain ⟨hop, hbytes⟩ := hfits
    exact ⟨hop, hbytes ▸ List.nil_prefix⟩
  | byte g =>
    cases bs with
    | nil => cases h
    | cons b bs =>
      cases h
      obtain ⟨hop, hbytes, -⟩ := hfits b
      exact ⟨hop, hbytes ▸ List.prefix_append [b] bs⟩
  | word g =>
    match bs, h with
    | lo :: hi :: bs, h =>
      cases h
      obtain ⟨hop, hbytes, -⟩ := hfits (joinBytes hi lo)
      rw [loByte_joinBytes, hiByte_joinBytes] at hbytes
      exact ⟨hop, hbytes ▸ List.prefix_append [lo, hi] bs⟩

/-- Settles O8: the cell's form fits its opcode, so `Form.Fits.of_decodeOperand` gives the bytes read. -/
theorem decodedBytesBeginWithEncoding : Obligations.DecodedBytesBeginWithEncoding := by
  intro w i bytes rest h
  obtain ⟨op, bs, f, rfl, hform, hoperand, rfl⟩ := decode_eq_ok.mp h
  obtain ⟨rfl, hprefix⟩ := (formOf_fits hform).of_decodeOperand hoperand
  refine ⟨List.cons_prefix_cons.mpr ⟨rfl, hprefix⟩, ?_⟩
  rw [Instr.length, Nat.add_comm, List.drop_succ_cons]

/-- Settles O11: the words are decoded as they stand. -/
theorem sampleWordsDecode : Obligations.SampleWordsDecode :=
  ⟨rfl, rfl, rfl, rfl, rfl, rfl, rfl, rfl, rfl, rfl, rfl, rfl, rfl, rfl⟩

/-! ### The opcode map and the table by mnemonic -/

/-- The cells of an operation have its modes by the table by mnemonic, each once. -/
theorem cellsOf_modes (o : Operation) : ((cellsOf o).map Prod.snd).Perm (legalModes o) ∧ (legalModes o).Nodup := by
  cases o <;> decide

/-- Settles O12: an operation's pairs are its `cellsOf`, whose modes are the table's, none of them twice. -/
theorem opcodeMapMatchesMnemonicTable : Obligations.OpcodeMapMatchesMnemonicTable := by
  refine ⟨fun op m o h => ?_, fun o m hm => ?_⟩
  · obtain ⟨hperm, -⟩ := cellsOf_modes o
    exact hperm.mem_iff.mp (List.mem_map.mpr ⟨(op, m), mem_cellsOf.mpr h, rfl⟩)
  · obtain ⟨hperm, hnodup⟩ := cellsOf_modes o
    obtain ⟨⟨op, m⟩, hcell, rfl⟩ := List.mem_map.mp (hperm.mem_iff.mpr hm)
    refine ⟨op, mem_cellsOf.mp hcell, fun op' h' => ?_⟩
    exact congrArg Prod.fst (List.inj_on_of_nodup_map (hperm.nodup_iff.mpr hnodup) (mem_cellsOf.mpr h') hcell rfl)

/-- An instruction's mode is one its operation has. -/
theorem Instr.mode_mem_legalModes (i : Instr) : i.mode ∈ legalModes i.operation := by
  obtain ⟨hlegal, -⟩ := opcodeMapMatchesMnemonicTable
  exact hlegal i.opcode i.mode i.operation (decodeOpcode_opcode i)

end Sys2Proof
end

section
/-! PROOFS of the family 40_sequencer_addressing.md, continued: the step on bytes that decode, and the faults of the fetch. -/

namespace Sys2Proof

/-- An operand whose mode has a one-byte field has one byte (30_encoding.md R51). -/
theorem Operand.length_bytes_of_byteMode {o : Operand}
    (h : o.mode ∈ [Mode.immediate, .zeroPage, .zeroPageX, .zeroPageY, .indirectX, .indirectY]) : o.bytes.length = 1 := by
  cases o with
  | implied | accumulator => simp [Operand.mode] at h
  | immediate v => rfl
  | mem m => cases m <;> first | rfl | simp [Operand.mode, MemOperand.mode] at h

/-- An operand whose mode has a two-byte field has two bytes (30_encoding.md R51). -/
theorem Operand.length_bytes_of_wordMode {o : Operand} (h : o.mode ∈ [Mode.absolute, .absoluteX, .absoluteY, .indirect]) :
    o.bytes.length = 2 := by
  cases o with
  | implied | accumulator | immediate => simp [Operand.mode] at h
  | mem m => cases m <;> first | rfl | simp [Operand.mode, MemOperand.mode] at h

/-- A form whose instructions have one operand byte waits for a byte. -/
theorem Form.Fits.eq_byte {op : Byte} {f : Form} (h : f.Fits op) (hlen : f.sample.operand.bytes.length = 1) :
    ∃ g, f = .byte g := by
  cases f with
  | bare i => simp [Form.sample, h.2] at hlen
  | byte g => exact ⟨g, rfl⟩
  | word g =>
    obtain ⟨-, hbytes, -⟩ := h 0
    rw [Form.sample, hbytes] at hlen
    cases hlen

/-- A form whose instructions have two operand bytes waits for a word. -/
theorem Form.Fits.eq_word {op : Byte} {f : Form} (h : f.Fits op) (hlen : f.sample.operand.bytes.length = 2) :
    ∃ g, f = .word g := by
  cases f with
  | bare i => simp [Form.sample, h.2] at hlen
  | byte g =>
    obtain ⟨-, hbytes, -⟩ := h 0
    rw [Form.sample, hbytes] at hlen
    cases hlen
  | word g => exact ⟨g, rfl⟩

end Sys2Proof

namespace Sys2Proof.Machine

/-- A step whose fetch succeeds is the fetched instruction's meaning. -/
theorem step_of_fetch {s : State} {i : Instr} (h : fetch s = .ok i) : step s = exec i s := by
  rw [step, h]

theorem step_of_fetch_error {s : State} {f : Fault} (h : fetch s = .error f) : step s = .fault f := by
  rw [step, h]

/-- Settles O16: the fetch reads the bytes that `decode` read, as many as the instruction's form takes, and so makes the same
instruction. -/
theorem stepRunsDecodedInstruction : Obligations.StepRunsDecodedInstruction := by
  intro s bytes rest i hdecode _ hopcode hfirst hsecond
  obtain ⟨op, bs, f, rfl, hform, hoperand, -⟩ := decode_eq_ok.mp hdecode
  refine step_of_fetch (fetch_eq_ok.mpr ⟨op, f, hopcode op rfl, hform, ?_⟩)
  have hfits := formOf_fits hform
  match f, bs, hoperand with
  | .bare j, _, hoperand =>
    cases hoperand
    rfl
  | .byte g, b :: bs, hoperand =>
    cases hoperand
    obtain ⟨-, hbytes, -⟩ := hfits b
    have hread : memRead s (s.pc + 1).toNat = .ok b := hfirst b (by simp [Instr.bytes, hbytes]) rfl
    exact congrArg (Except.map g) hread
  | .word g, lo :: hi :: bs, hoperand =>
    cases hoperand
    obtain ⟨-, hbytes, -⟩ := hfits (joinBytes hi lo)
    obtain ⟨-, hlo⟩ := memRead_eq_ok.mp (hfirst lo (by simp [Instr.bytes, hbytes]) rfl)
    obtain ⟨hin, hhi⟩ := memRead_eq_ok.mp (hsecond hi (by simp [Instr.bytes, hbytes]) rfl)
    have hread : memReadWord s (s.pc + 1).toNat = .ok (joinBytes hi lo) :=
      memReadWord_eq_ok.mpr ⟨hin, congrArg₂ joinBytes hhi hlo⟩
    exact congrArg (Except.map g) hread

/-! ### The faults of the fetch -/

/-- Fetching a defined opcode is fetching the operand of its form. -/
theorem fetch_of_form {s : State} {op : Byte} {form : Form} (hread : memRead s s.pc.toNat = .ok op)
    (hform : formOf op = some form) : fetch s = fetchOperand s form := by
  simp [fetch, fetchAddr, hread, hform]

/-- An opcode out of range is the fetch's first fault (60_exceptions.md R201). -/
theorem fetch_out_of_range {s : State} (h : s.cfg.memSize ≤ s.pc.toNat) : fetch s = .error (.outOfBounds s.pc.toNat) := by
  have hread : memRead s s.pc.toNat = .error (.outOfBounds s.pc.toNat) := memRead_eq_error.mpr ⟨h, rfl⟩
  simp [fetch, fetchAddr, hread]

/-- Settles O17: the mode tells how many bytes the form waits for, which are a byte read or a word read at PC + 1. -/
theorem fetchFaults : Obligations.FetchFaults := by
  refine fun s => ⟨fun hpc => step_of_fetch_error (fetch_out_of_range hpc), fun op m o hread hdecode => ?_⟩
  obtain ⟨form, hform, hpair⟩ := Option.map_eq_some_iff.mp hdecode
  cases hpair
  have hfits := formOf_fits hform
  have hfetch := fetch_of_form hread hform
  refine ⟨fun hm hout => ?_, fun hm => ?_⟩
  · obtain ⟨g, rfl⟩ := hfits.eq_byte (Operand.length_bytes_of_byteMode hm)
    exact step_of_fetch_error (hfetch.trans (congrArg (Except.map g) (memRead_eq_error.mpr ⟨hout, rfl⟩)))
  · obtain ⟨g, rfl⟩ := hfits.eq_word (Operand.length_bytes_of_wordMode hm)
    have hfault {f : Fault} (h : memReadWord s (s.pc + 1).toNat = .error f) : step s = .fault f :=
      step_of_fetch_error (hfetch.trans (congrArg (Except.map g) h))
    exact ⟨fun hout => hfault (memReadWord_eq_error.mpr (.inl ⟨hout, rfl⟩)),
      fun hlast => hfault (memReadWord_eq_error.mpr (.inr ⟨hlast, rfl⟩))⟩

end Sys2Proof.Machine
end

section
/-! SUPPORT. `exec` in closed form: the accesses that Machine/Access.lean lists for an instruction, made in order, and once all of them
are in memory the refusal or the next state, which `afterOp` gives as a function of the state. Every claim about all instructions at once
is made from it. -/

namespace Sys2Proof.Machine

/-! ### An outcome after accesses -/

/-- The outcome `out` after the listed accesses: the first of them out of range is the fault instead (60_exceptions.md R205). -/
def outcomeAfter (size : Nat) (l : List Access) (out : Out) : Out :=
  match firstOut size (l.map Access.addr) with
  | none => out
  | some a => .fault (.outOfBounds a)

theorem outcomeAfter_nil (size : Nat) (out : Out) : outcomeAfter size [] out = out := rfl

theorem outcomeAfter_append (size : Nat) (l l' : List Access) (out : Out) :
    outcomeAfter size (l ++ l') out = outcomeAfter size l (outcomeAfter size l' out) := by
  simp only [outcomeAfter, firstOut, List.map_append, List.find?_append]
  cases (l.map Access.addr).find? fun a => decide (size ≤ a) <;> rfl

/-- What a value that needs accesses is used for comes after them. -/
theorem finish_accessing (size : Nat) (l : List Access) (t : State) :
    finish (accessing size (l.map Access.addr) t) = outcomeAfter size l (.next t) := by
  unfold accessing outcomeAfter
  cases firstOut size (l.map Access.addr) <;> rfl

theorem firstOut_eq_none {size : Nat} {l : List Nat} : firstOut size l = none ↔ ∀ a ∈ l, a < size := by
  simp [firstOut]

theorem le_of_firstOut {size a : Nat} {l : List Nat} (h : firstOut size l = some a) : size ≤ a :=
  of_decide_eq_true (List.find?_some (p := fun a => decide (size ≤ a)) h)

theorem outcomeAfter_of_all {size : Nat} {l : List Access} (h : ∀ x ∈ l, x.addr < size) (out : Out) :
    outcomeAfter size l out = out := by
  have hnone : firstOut size (l.map Access.addr) = none := firstOut_eq_none.mpr (List.forall_mem_map.mpr h)
  rw [outcomeAfter, hnone]

/-- Either every access is in memory, or one is not and it is the fault. -/
theorem outcomeAfter_cases (size : Nat) (l : List Access) (out : Out) :
    ((∀ x ∈ l, x.addr < size) ∧ outcomeAfter size l out = out) ∨
      ∃ a, size ≤ a ∧ outcomeAfter size l out = .fault (.outOfBounds a) := by
  cases hfirst : firstOut size (l.map Access.addr) with
  | none =>
    have hall := List.forall_mem_map.mp (firstOut_eq_none.mp hfirst)
    exact .inl ⟨hall, outcomeAfter_of_all hall out⟩
  | some a => exact .inr ⟨a, le_of_firstOut hfirst, by rw [outcomeAfter, hfirst]⟩

/-! ### The resolver as accesses -/

theorem effectiveAddress_accessing (s : State) (m : MemOperand) :
    effectiveAddress s m = accessing s.cfg.memSize ((targetOf s m).1.map Access.addr) (targetOf s m).2 := by
  cases m with
  | zeroPage | zeroPageX | zeroPageY | absolute | absoluteX | absoluteY => rfl
  | indirect | indirectX | indirectY =>
    rw [effectiveAddress, memReadWord_accessing, accessing_map]
    rfl

theorem memRead_accessing (s : State) (a : Nat) : memRead s a = accessing s.cfg.memSize [a] (s.mem.get a) := by
  rw [accessing_cons, accessing_nil, memRead]

/-- Resolving a memory operand makes the accesses of its pointer, then reads the byte at its address (R73). -/
theorem resolveMem_accessing (s : State) (m : MemOperand) :
    resolveMem s m = accessing s.cfg.memSize ((resolverAccesses s (.mem m)).map Access.addr)
      { ea := (targetOf s m).2, value := s.mem.get (targetOf s m).2 } := by
  have hbind : resolveMem s m =
      (effectiveAddress s m).bind fun ea => (memRead s ea).map fun v => { ea := ea, value := v } := by
    unfold resolveMem
    cases effectiveAddress s m with
    | error f => rfl
    | ok ea =>
      dsimp only [Except.bind]
      cases memRead s ea <;> rfl
  rw [hbind, effectiveAddress_accessing, resolverAccesses, List.map_append]
  refine accessing_bind ?_
  rw [memRead_accessing, accessing_map]
  rfl

/-- The value of an operand, read from memory whatever its address. -/
def valueOf (s : State) : Operand → Byte
  | .implied => 0
  | .accumulator => s.a
  | .immediate v => v
  | .mem m => s.mem.get (targetOf s m).2

theorem operandValue_accessing (s : State) (o : Operand) :
    operandValue s o = accessing s.cfg.memSize ((resolverAccesses s o).map Access.addr) (valueOf s o) := by
  cases o with
  | implied | accumulator | immediate => rfl
  | mem m =>
    rw [operandValue, resolveMem_accessing, accessing_map]
    rfl

theorem withValue_eq (o : Operand) (s : State) (k : Byte → State → Out) :
    withValue o s k = outcomeAfter s.cfg.memSize (resolverAccesses s o) (k (valueOf s o) (s.advance o)) := by
  rw [withValue, operandValue_accessing, accessing, outcomeAfter]
  cases firstOut s.cfg.memSize ((resolverAccesses s o).map Access.addr) <;> rfl

theorem withTarget_eq (m : MemOperand) (s : State) (k : Resolved → State → Out) :
    withTarget m s k = outcomeAfter s.cfg.memSize (resolverAccesses s (.mem m))
      (k { ea := (targetOf s m).2, value := s.mem.get (targetOf s m).2 } (s.advance (.mem m))) := by
  rw [withTarget, resolveMem_accessing, accessing, outcomeAfter]
  cases firstOut s.cfg.memSize ((resolverAccesses s (.mem m)).map Access.addr) <;> rfl

theorem memWrite_accessing (s : State) (a : Nat) (v : Byte) :
    memWrite s a v = accessing s.cfg.memSize [a] { s with mem := s.mem.set a v } := by
  rw [accessing_cons, accessing_nil, memWrite]

/-! ### The state after an operation -/

/-- The address of a memory operand. -/
def targetAddr (s : State) : Operand → Nat
  | .mem m => (targetOf s m).2
  | .implied | .accumulator | .immediate _ => 0

/-- The address and the value of an operand, read whatever the address. -/
def resolvedOf (s : State) (o : Operand) : Resolved := { ea := targetAddr s o, value := valueOf s o }

/-- A result put where the operand lies: A, or memory at the operand's address (44_shift_rotate.md R150). -/
def putResult (v : Byte) (ea : Nat) (s : State) : Operand → State
  | .accumulator => { s with a := v }
  | .mem _ => { s with mem := s.mem.set ea v }
  | .implied | .immediate _ => s

/-- A shift's result where its operand lies, with the flags (44_shift_rotate.md R150 to R154). -/
def afterShift (f : Byte → Bool → Shifted) (o : Operand) (r : Resolved) (next : Word) (s : State) : State :=
  { putResult (f r.value (getFlag s.p .c)).r r.ea s o with
    p := shiftFlags s.p (f r.value (getFlag s.p .c)), pc := next }

/-- A sum in A, with the flags (42_arithmetic.md R121, R122). -/
def afterSum (v : Byte) (next : Word) (s : State) : State :=
  { s with a := (add8 s.a v (getFlag s.p .c)).r, p := sumFlags s.p (add8 s.a v (getFlag s.p .c)), pc := next }

/-- PC after a branch (45_branch.md R160). -/
def afterBranch (f : Flag) (want : Bool) (r : Resolved) (next : Word) (s : State) : State :=
  { s with pc := if getFlag s.p f = want then next + signExtend16 r.value else next }

/-- The memory two pushes of a word leave. -/
def pushedWord (w : Word) (s : State) : Memory :=
  (s.mem.set (stackAddr s.sp) (hiByte w)).set (stackAddr (s.sp - 1)) (loByte w)

/-- The state in which an operation ends, its operand resolved and `next` the address after the instruction (the rules of files 41 to
48). -/
def afterResolved (o : Operand) (r : Resolved) (next : Word) (s : State) : Operation → State
  | .lda => { s with a := r.value, p := setNZ s.p r.value, pc := next }
  | .ldx => { s with x := r.value, p := setNZ s.p r.value, pc := next }
  | .ldy => { s with y := r.value, p := setNZ s.p r.value, pc := next }
  | .sta => { putResult s.a r.ea s o with pc := next }
  | .stx => { putResult s.x r.ea s o with pc := next }
  | .sty => { putResult s.y r.ea s o with pc := next }
  | .tax => { s with x := s.a, p := setNZ s.p s.a, pc := next }
  | .tay => { s with y := s.a, p := setNZ s.p s.a, pc := next }
  | .txa => { s with a := s.x, p := setNZ s.p s.x, pc := next }
  | .tya => { s with a := s.y, p := setNZ s.p s.y, pc := next }
  | .adc => afterSum r.value next s
  | .sbc => afterSum (~~~r.value) next s
  | .cmp => { s with p := compareFlags s.p s.a r.value, pc := next }
  | .cpx => { s with p := compareFlags s.p s.x r.value, pc := next }
  | .cpy => { s with p := compareFlags s.p s.y r.value, pc := next }
  | .inc => { putResult (incByte r.value) r.ea s o with p := setNZ s.p (incByte r.value), pc := next }
  | .dec => { putResult (decByte r.value) r.ea s o with p := setNZ s.p (decByte r.value), pc := next }
  | .inx => { s with x := incByte s.x, p := setNZ s.p (incByte s.x), pc := next }
  | .iny => { s with y := incByte s.y, p := setNZ s.p (incByte s.y), pc := next }
  | .dex => { s with x := decByte s.x, p := setNZ s.p (decByte s.x), pc := next }
  | .dey => { s with y := decByte s.y, p := setNZ s.p (decByte s.y), pc := next }
  | .and => { s with a := s.a &&& r.value, p := setNZ s.p (s.a &&& r.value), pc := next }
  | .ora => { s with a := s.a ||| r.value, p := setNZ s.p (s.a ||| r.value), pc := next }
  | .eor => { s with a := s.a ^^^ r.value, p := setNZ s.p (s.a ^^^ r.value), pc := next }
  | .bit => { s with p := bitFlags s.p s.a r.value, pc := next }
  | .asl => afterShift shiftAsl o r next s
  | .lsr => afterShift shiftLsr o r next s
  | .rol => afterShift shiftRol o r next s
  | .ror => afterShift shiftRor o r next s
  | .bpl => afterBranch .n false r next s
  | .bmi => afterBranch .n true r next s
  | .bvc => afterBranch .v false r next s
  | .bvs => afterBranch .v true r next s
  | .bcc => afterBranch .c false r next s
  | .bcs => afterBranch .c true r next s
  | .bne => afterBranch .z false r next s
  | .beq => afterBranch .z true r next s
  | .jmp => { s with pc := BitVec.ofNat 16 r.ea }
  | .jsr => { s with
      mem := pushedWord (next + 65535#16) s, sp := s.sp - 2, pc := BitVec.ofNat 16 r.ea }
  | .rts => { s with
      sp := s.sp + 2
      pc := joinBytes (s.mem.get (stackAddr (s.sp + 2))) (s.mem.get (stackAddr (s.sp + 1))) + 1#16 }
  | .brk => { s with
      mem := (pushedWord (next + 1#16) s).set (stackAddr (s.sp - 2)) (pushedStatus s.p)
      sp := s.sp - 3, p := putFlag s.p .i true
      pc := joinBytes (s.mem.get (brkVector + 1)) (s.mem.get brkVector) }
  | .rti => { s with
      p := pulledStatus (s.mem.get (stackAddr (s.sp + 1))), sp := s.sp + 3
      pc := joinBytes (s.mem.get (stackAddr (s.sp + 3))) (s.mem.get (stackAddr (s.sp + 2))) }
  | .pha => { s with mem := s.mem.set (stackAddr s.sp) s.a, sp := s.sp - 1, pc := next }
  | .php => { s with mem := s.mem.set (stackAddr s.sp) (pushedStatus s.p), sp := s.sp - 1, pc := next }
  | .pla => { s with
      a := s.mem.get (stackAddr (s.sp + 1)), p := setNZ s.p (s.mem.get (stackAddr (s.sp + 1)))
      sp := s.sp + 1, pc := next }
  | .plp => { s with p := pulledStatus (s.mem.get (stackAddr (s.sp + 1))), sp := s.sp + 1, pc := next }
  | .tsx => { s with x := s.sp, p := setNZ s.p s.sp, pc := next }
  | .txs => { s with sp := s.x, pc := next }
  | .clc => { s with p := putFlag s.p .c false, pc := next }
  | .sec => { s with p := putFlag s.p .c true, pc := next }
  | .cli => { s with p := putFlag s.p .i false, pc := next }
  | .sei => { s with p := putFlag s.p .i true, pc := next }
  | .cld => { s with p := putFlag s.p .d false, pc := next }
  | .sed => { s with p := putFlag s.p .d true, pc := next }
  | .clv => { s with p := putFlag s.p .v false, pc := next }
  | .nop => { s with pc := next }

/-- The state in which an operation with all its accesses in memory ends. -/
def afterOp (o : Operand) (s : State) (op : Operation) : State := afterResolved o (resolvedOf s o) (pcSeq s o) s op

/-- How an operation ends once its accesses are in memory: refused decimal arithmetic (60_exceptions.md R206), or the next state. -/
def completion (o : Operand) (s : State) : Operation → Out
  | .adc => if decimalRefused s then .refused .decimalArithmetic else .next (afterOp o s .adc)
  | .sbc => if decimalRefused s then .refused .decimalArithmetic else .next (afterOp o s .sbc)
  | op => .next (afterOp o s op)

theorem completion_refused {op : Operation} (hop : op ∈ [.adc, .sbc]) {s : State} (h : decimalRefused s = true)
    (o : Operand) : completion o s op = .refused .decimalArithmetic := by
  cases op with
  | adc | sbc => exact if_pos h
  | _ => exact absurd hop (by decide)

theorem completion_next {op : Operation} {s : State} (h : ¬ (op ∈ [.adc, .sbc] ∧ decimalRefused s = true)) (o : Operand) :
    completion o s op = .next (afterOp o s op) := by
  cases op with
  | adc | sbc => exact if_neg fun hs => h ⟨by decide, hs⟩
  | _ => rfl

/-- An operation that completes is refused, or answers the state after it. -/
theorem completion_cases (o : Operand) (s : State) (op : Operation) :
    (completion o s op = .refused .decimalArithmetic ∧ op ∈ [.adc, .sbc] ∧ decimalRefused s = true) ∨
      completion o s op = .next (afterOp o s op) := by
  by_cases h : op ∈ [.adc, .sbc] ∧ decimalRefused s = true
  · exact .inl ⟨completion_refused h.1 h.2 o, h⟩
  · exact .inr (completion_next h o)

/-! ### The closed form -/

/-- An operation on a memory operand that makes further accesses once the operand resolves. -/
theorem withTarget_accessing {m : MemOperand} {s t : State} {k : Resolved → State → Out} {l : List Access}
    (h : k { ea := (targetOf s m).2, value := valueOf s (.mem m) } (s.advance (.mem m)) =
      finish (accessing s.cfg.memSize (l.map Access.addr) t)) :
    withTarget m s k = outcomeAfter s.cfg.memSize (resolverAccesses s (.mem m) ++ l) (.next t) := by
  rw [withTarget_eq, outcomeAfter_append, ← finish_accessing]
  exact congrArg _ h

theorem storeByte_eq (v : Byte) (m : MemOperand) (s : State) :
    storeByte v m s = outcomeAfter s.cfg.memSize (resolverAccesses s (.mem m) ++ storeAccess s (.mem m))
      (.next { putResult v (targetOf s m).2 s (.mem m) with pc := pcSeq s (.mem m) }) := by
  refine withTarget_accessing ?_
  rw [memWrite_accessing]
  rfl

theorem modifyMem_eq (f : Byte → Byte) (m : MemOperand) (s : State) :
    modifyMem f m s = outcomeAfter s.cfg.memSize (resolverAccesses s (.mem m) ++ storeAccess s (.mem m))
      (.next { putResult (f (valueOf s (.mem m))) (targetOf s m).2 s (.mem m) with
        p := setNZ s.p (f (valueOf s (.mem m))), pc := pcSeq s (.mem m) }) := by
  refine withTarget_accessing ?_
  rw [memWrite_accessing, accessing_map]
  rfl

theorem shiftMem_eq (f : Byte → Bool → Shifted) (m : MemOperand) (s : State) :
    shiftMem f m s = outcomeAfter s.cfg.memSize (resolverAccesses s (.mem m) ++ storeAccess s (.mem m))
      (.next (afterShift f (.mem m) (resolvedOf s (.mem m)) (pcSeq s (.mem m)) s)) := by
  refine withTarget_accessing ?_
  rw [memWrite_accessing, accessing_map]
  rfl

/-- A shift of A or of memory. -/
theorem onShift_eq {o : Operand} (ho : o = .accumulator ∨ ∃ m, o = .mem m) (f : Byte → Bool → Shifted) (s : State) :
    onShift (shiftA f s) (fun m => shiftMem f m s) o =
      outcomeAfter s.cfg.memSize (resolverAccesses s o ++ storeAccess s o) (.next (afterShift f o (resolvedOf s o) (pcSeq s o) s)) := by
  obtain rfl | ⟨m, rfl⟩ := ho
  · exact shiftA_eq f s
  · exact shiftMem_eq f m s

theorem pushes_one (s : State) : (pushes s 1).map Access.addr = [stackAddr s.sp] := by
  simp [pushes]

theorem pushes_two (s : State) : (pushes s 2).map Access.addr = [stackAddr s.sp, stackAddr (s.sp - 1)] := by
  simp [pushes]

theorem pushes_three (s : State) :
    (pushes s 3).map Access.addr = [stackAddr s.sp, stackAddr (s.sp - 1), stackAddr (s.sp - 2)] := by
  simp [pushes]

theorem pulls_one (s : State) : (pulls s 1).map Access.addr = [stackAddr (s.sp + 1)] := by
  simp [pulls]

theorem pulls_two (s : State) : (pulls s 2).map Access.addr = [stackAddr (s.sp + 1), stackAddr (s.sp + 2)] := by
  simp [pulls]

theorem pulls_three (s : State) :
    (pulls s 3).map Access.addr = [stackAddr (s.sp + 1), stackAddr (s.sp + 2), stackAddr (s.sp + 3)] := by
  simp [pulls]

theorem callSubroutine_eq (m : MemOperand) (s : State) :
    callSubroutine m s = outcomeAfter s.cfg.memSize (resolverAccesses s (.mem m) ++ pushes s 2)
      (.next (afterOp (.mem m) s .jsr)) := by
  refine withTarget_accessing ?_
  rw [pushWord_accessing, accessing_map, pushes_two]
  rfl

theorem jumpTo_eq (m : MemOperand) (s : State) :
    jumpTo m s = outcomeAfter s.cfg.memSize (resolverAccesses s (.mem m)) (.next (afterOp (.mem m) s .jmp)) :=
  withTarget_eq m s _

theorem branchIf_eq (f : Flag) (want : Bool) (d : Byte) (s : State) :
    branchIf f want d s = .next (afterBranch f want (resolvedOf s (.immediate d)) (pcSeq s (.immediate d)) s) := by
  rw [branchIf, withValue_ok rfl, State.flag_advance, afterBranch]
  by_cases h : getFlag s.p f = want
  · rw [if_pos h, if_pos h]
    rfl
  · rw [if_neg h, if_neg h]
    rfl

/-- The stack operations make their pushes or pulls in order, and a BRK reads its vector after them. -/
theorem stackOp_eq {op : Operation} (h : op ∈ [.rts, .rti, .pha, .php, .pla, .plp, .brk]) (s : State) :
    execOp .implied s op = outcomeAfter s.cfg.memSize (executorAccesses s .implied op) (.next (afterOp .implied s op)) := by
  rw [← finish_accessing]
  simp only [List.mem_cons, List.not_mem_nil, or_false] at h
  obtain rfl | rfl | rfl | rfl | rfl | rfl | rfl := h <;> refine congrArg finish ?_
  · rw [executorAccesses, pulls_two, returnFromSubroutine, pullWord_accessing, accessing_map]
    rfl
  · rw [executorAccesses, pulls_three, returnFromBreak_accessing]
    rfl
  · rw [executorAccesses, pushes_one, push_accessing]
    rfl
  · rw [executorAccesses, pushes_one, push_accessing]
    rfl
  · rw [executorAccesses, pulls_one, pullInto_accessing]
    rfl
  · rw [executorAccesses, pulls_one, pullInto_accessing]
    rfl
  · rw [executorAccesses, List.map_append, pushes_three, takeBreak_accessing]
    rfl

/-- `exec` makes the accesses of its instruction in order, then completes. -/
theorem exec_eq_outcomeAfter (i : Instr) (s : State) :
    exec i s = outcomeAfter s.cfg.memSize (execAccesses s i) (completion i.operand s i.operation) := by
  have hmem := operand_mem (i := i)
  have hshift := operand_shift (i := i)
  have hbranch := operand_branch (i := i)
  have himplied := operand_implied (i := i)
  rw [exec_eq, execAccesses]
  generalize i.operand = o, i.operation = op at *
  cases op with
  | lda | ldx | ldy | cmp | cpx | cpy | and | ora | eor | bit | adc | sbc =>
    rw [executorAccesses, List.append_nil]
    simp only [execOp]
    exact withValue_eq o s _
  | sta | stx | sty =>
    obtain ⟨m, rfl⟩ := hmem (by decide)
    exact storeByte_eq _ m s
  | inc | dec =>
    obtain ⟨m, rfl⟩ := hmem (by decide)
    exact modifyMem_eq _ m s
  | asl | lsr | rol | ror => exact onShift_eq (hshift (by decide)) _ s
  | bpl | bmi | bvc | bvs | bcc | bcs | bne | beq =>
    obtain ⟨d, rfl⟩ := hbranch (by decide)
    exact branchIf_eq _ _ d s
  | jmp =>
    obtain ⟨m, rfl⟩ := hmem (by decide)
    rw [executorAccesses, List.append_nil]
    exact jumpTo_eq m s
  | jsr =>
    obtain ⟨m, rfl⟩ := hmem (by decide)
    exact callSubroutine_eq m s
  | tax | tay | txa | tya | inx | iny | dex | dey | tsx | txs | clc | sec | cli | sei | cld | sed | clv | nop =>
    obtain rfl := himplied (by decide)
    rfl
  | rts | rti | pha | php | pla | plp | brk =>
    obtain rfl := himplied (by decide)
    exact stackOp_eq (by decide) s

/-- When `exec` answers a next state, every access was in memory and the state is `afterOp`'s. -/
theorem exec_eq_next {i : Instr} {s t : State} (h : exec i s = .next t) :
    (∀ x ∈ execAccesses s i, x.addr < s.cfg.memSize) ∧ t = afterOp i.operand s i.operation := by
  rw [exec_eq_outcomeAfter] at h
  obtain ⟨hall, hout⟩ | ⟨a, -, hout⟩ :=
    outcomeAfter_cases s.cfg.memSize (execAccesses s i) (completion i.operand s i.operation)
  · rw [hout] at h
    obtain ⟨hrefused, -⟩ | hnext := completion_cases i.operand s i.operation
    · cases hrefused.symm.trans h
    · exact ⟨hall, Host.Outcome.next.inj (h.symm.trans hnext)⟩
  · cases hout.symm.trans h

end Sys2Proof.Machine
end

section
/-! SUPPORT and PROOFS of the invariant and of what an instruction leaves alone: the bytes of memory, the registers and the parameters
that a next state shares with the state before it. -/

namespace Sys2Proof.Machine

/-! ### Several writes -/

/-- Memory with bytes written one after another. -/
def Memory.setAll (m : Memory) (w : List (Nat × Byte)) : Memory := w.foldl (fun n c => n.set c.1 c.2) m

theorem Memory.get_setAll {w : List (Nat × Byte)} {a : Nat} (h : a ∉ w.map Prod.fst) (m : Memory) :
    (m.setAll w).get a = m.get a := by
  induction w generalizing m with
  | nil => rfl
  | cons c w ih =>
    rw [List.map_cons, List.mem_cons, not_or] at h
    exact (ih h.2 (m.set c.1 c.2)).trans (Memory.get_set_ne m c.2 h.1)

theorem Memory.wf_setAll {m : Memory} (h : m.wf = true) (w : List (Nat × Byte)) : (m.setAll w).wf = true := by
  induction w generalizing m with
  | nil => exact h
  | cons c w ih => exact ih (Memory.wf_set h c.1 c.2)

theorem Memory.within_setAll {m : Memory} {n : Nat} {w : List (Nat × Byte)} (h : m.within n = true)
    (hw : ∀ a ∈ w.map Prod.fst, a < n) : (m.setAll w).within n = true := by
  induction w generalizing m with
  | nil => exact h
  | cons c w ih =>
    rw [List.map_cons, List.forall_mem_cons] at hw
    exact ih (Memory.within_set h c.2 hw.1) hw.2

/-! ### What an operation writes to memory -/

/-- The accesses of an operation that write (20_memory.md R37). -/
def writeAccesses (s : State) (o : Operand) : Operation → List Access
  | .sta | .stx | .sty | .inc | .dec | .asl | .lsr | .rol | .ror => storeAccess s o
  | .pha | .php => pushes s 1
  | .jsr => pushes s 2
  | .brk => pushes s 3
  | _ => []

theorem writeAccesses_subset (s : State) (o : Operand) (op : Operation) :
    writeAccesses s o op ⊆ executorAccesses s o op := by
  cases op with
  | brk => exact List.subset_append_left _ _
  | _ => first | exact List.Subset.refl _ | exact List.nil_subset _

/-- A result put where the operand lies is written at the operand's store. -/
theorem putResult_mem (v : Byte) (s : State) (o : Operand) :
    ∃ w : List (Nat × Byte), w.map Prod.fst = (storeAccess s o).map Access.addr ∧
      (putResult v (targetAddr s o) s o).mem = s.mem.setAll w := by
  cases o with
  | implied | accumulator | immediate => exact ⟨[], rfl, rfl⟩
  | mem m => exact ⟨[((targetOf s m).2, v)], rfl, rfl⟩

/-- An operation writes memory at its writing accesses, in their order, and nowhere else. -/
theorem afterOp_mem (o : Operand) (s : State) (op : Operation) :
    ∃ w : List (Nat × Byte), w.map Prod.fst = (writeAccesses s o op).map Access.addr ∧
      (afterOp o s op).mem = s.mem.setAll w := by
  cases op with
  | sta | stx | sty | inc | dec | asl | lsr | rol | ror => exact putResult_mem _ s o
  | pha | php => exact ⟨[(_, _)], (pushes_one s).symm, rfl⟩
  | jsr => exact ⟨[(_, _), (_, _)], (pushes_two s).symm, rfl⟩
  | brk => exact ⟨[(_, _), (_, _), (_, _)], (pushes_three s).symm, rfl⟩
  | _ => exact ⟨[], rfl, rfl⟩

/-- An address at which an operation does not write reads as before. -/
theorem afterOp_get {o : Operand} {s : State} {op : Operation} {a : Nat}
    (h : a ∉ (writeAccesses s o op).map Access.addr) : (afterOp o s op).mem.get a = s.mem.get a := by
  obtain ⟨w, haddr, hmem⟩ := afterOp_mem o s op
  rw [hmem, Memory.get_setAll (haddr ▸ h)]

/-- An operation that does not write leaves memory as it is. -/
theorem afterOp_mem_eq {o : Operand} {s : State} {op : Operation} (h : writeAccesses s o op = []) :
    (afterOp o s op).mem = s.mem := by
  obtain ⟨w, haddr, hmem⟩ := afterOp_mem o s op
  rw [h] at haddr
  rw [hmem, List.map_eq_nil_iff.mp haddr]
  rfl

/-! ### What an operation leaves in the registers -/

theorem putResult_cfg (v : Byte) (ea : Nat) (s : State) (o : Operand) : (putResult v ea s o).cfg = s.cfg := by
  cases o <;> rfl

theorem putResult_x (v : Byte) (ea : Nat) (s : State) (o : Operand) : (putResult v ea s o).x = s.x := by
  cases o <;> rfl

theorem putResult_y (v : Byte) (ea : Nat) (s : State) (o : Operand) : (putResult v ea s o).y = s.y := by
  cases o <;> rfl

theorem putResult_sp (v : Byte) (ea : Nat) (s : State) (o : Operand) : (putResult v ea s o).sp = s.sp := by
  cases o <;> rfl

theorem putResult_a {o : Operand} (h : o ≠ .accumulator) (v : Byte) (ea : Nat) (s : State) :
    (putResult v ea s o).a = s.a := by
  cases o with
  | accumulator => exact absurd rfl h
  | _ => rfl

/-- No operation writes a parameter. -/
theorem afterOp_cfg (o : Operand) (s : State) (op : Operation) : (afterOp o s op).cfg = s.cfg := by
  cases op with
  | sta | stx | sty | inc | dec | asl | lsr | rol | ror => exact putResult_cfg _ _ s o
  | _ => rfl

theorem afterOp_a {o : Operand} {op : Operation} (hop : op ∉ [.lda, .adc, .sbc, .and, .ora, .eor, .txa, .tya, .pla])
    (ho : o ≠ .accumulator) (s : State) : (afterOp o s op).a = s.a := by
  cases op with
  | lda | adc | sbc | and | ora | eor | txa | tya | pla => exact absurd (by decide) hop
  | sta | stx | sty | inc | dec | asl | lsr | rol | ror => exact putResult_a ho _ _ s
  | _ => rfl

theorem afterOp_x {op : Operation} (hop : op ∉ [.ldx, .inx, .dex, .tax, .tsx]) (o : Operand) (s : State) :
    (afterOp o s op).x = s.x := by
  cases op with
  | ldx | inx | dex | tax | tsx => exact absurd (by decide) hop
  | sta | stx | sty | inc | dec | asl | lsr | rol | ror => exact putResult_x _ _ s o
  | _ => rfl

theorem afterOp_y {op : Operation} (hop : op ∉ [.ldy, .iny, .dey, .tay]) (o : Operand) (s : State) :
    (afterOp o s op).y = s.y := by
  cases op with
  | ldy | iny | dey | tay => exact absurd (by decide) hop
  | sta | stx | sty | inc | dec | asl | lsr | rol | ror => exact putResult_y _ _ s o
  | _ => rfl

theorem afterOp_sp {op : Operation} (hop : op ∉ [.txs, .pha, .php, .pla, .plp, .jsr, .rts, .brk, .rti]) (o : Operand)
    (s : State) : (afterOp o s op).sp = s.sp := by
  cases op with
  | txs | pha | php | pla | plp | jsr | rts | brk | rti => exact absurd (by decide) hop
  | sta | stx | sty | inc | dec | asl | lsr | rol | ror => exact putResult_sp _ _ s o
  | _ => rfl

theorem afterOp_pc {op : Operation}
    (hop : op ∉ [.bpl, .bmi, .bvc, .bvs, .bcc, .bcs, .bne, .beq, .jmp, .jsr, .rts, .rti, .brk]) (o : Operand) (s : State) :
    (afterOp o s op).pc = pcSeq s o := by
  cases op with
  | bpl | bmi | bvc | bvs | bcc | bcs | bne | beq | jmp | jsr | rts | rti | brk => exact absurd (by decide) hop
  | _ => rfl

/-- Settles O49: an operation's next state is `afterOp`, register by register. -/
theorem registerWriters : Obligations.RegisterWriters := by
  intro i s t h
  obtain ⟨-, rfl⟩ := exec_eq_next h
  exact ⟨fun hop ho => afterOp_a hop ho s, fun hop => afterOp_x hop _ s, fun hop => afterOp_y hop _ s,
    fun hop => afterOp_sp hop _ s⟩

/-- Settles O52: PC is PC_seq, as a number by `pcSeq_eq`. -/
theorem sequentialPc : Obligations.SequentialPc := by
  intro i s t h hop
  obtain ⟨-, rfl⟩ := exec_eq_next h
  rw [afterOp_pc hop, pcSeq_eq, BitVec.toNat_add, BitVec.toNat_ofNat, Nat.add_mod_mod, Nat.add_assoc]
  rfl

/-- The address a memory operand resolves to is its target. -/
theorem targetOf_of_resolveMem {s : State} {m : MemOperand} {r : Resolved} (h : resolveMem s m = .ok r) :
    r.ea = (targetOf s m).2 := by
  obtain ⟨hea, -⟩ := resolveMem_eq_ok.mp h
  rw [effectiveAddress_accessing, accessing] at hea
  split at hea
  · exact (Except.ok.inj hea).symm
  · cases hea

/-- Settles O51: memory changes at most at the operation's `writeAccesses`, which are its store or its pushes. -/
theorem memoryWriters : Obligations.MemoryWriters := by
  intro i s t h
  obtain ⟨-, rfl⟩ := exec_eq_next h
  have hacc := operand_accumulator (i := i)
  generalize i.operand = o, i.operation = op at *
  refine ⟨fun hop => afterOp_mem_eq ?_, fun ho => afterOp_mem_eq ?_, fun m r hop ho hr a ha => afterOp_get ?_,
    fun hop a ha => afterOp_get ?_, fun hop a ha => afterOp_get ?_, fun hop a ha => afterOp_get ?_⟩
  · cases op <;> first | rfl | exact absurd (by decide) hop
  · have hop := hacc ho
    subst ho
    cases op <;> first | rfl | exact absurd hop (by decide)
  · subst ho
    have hstore : writeAccesses s (.mem m) op = storeAccess s (.mem m) := by
      cases op <;> first | rfl | exact absurd hop (by decide)
    rw [hstore, storeAccess, ← targetOf_of_resolveMem hr]
    simpa using ha
  · have hpush : writeAccesses s o op = pushes s 1 := by
      cases op <;> first | rfl | exact absurd hop (by decide)
    rw [hpush, pushes_one]
    exact mt List.mem_singleton.mp ha
  · subst hop
    rw [writeAccesses, pushes_two]
    exact ha
  · subst hop
    rw [writeAccesses, pushes_three]
    exact ha

/-! ### The invariant -/

theorem step_eq_next {s t : State} (h : step s = .next t) : ∃ i, fetch s = .ok i ∧ exec i s = .next t := by
  unfold step at h
  split at h
  · cases h
  · next i hi => exact ⟨i, hi, h⟩

/-- Bits 5 and 4 of P stay zero: PLP and RTI clear them, and no other operation writes them (10_state.md R23). -/
theorem exec_keeps_clear {i : Instr} {s t : State} (h : exec i s = .next t) {f : Flag} (hf : f = .b ∨ f = .u)
    (hclear : getFlag s.p f = false) : getFlag t.p f = false := by
  by_cases hw : f ∈ writtenFlags i.operation
  · have hpulled : i.operation = .plp ∨ i.operation = .rti := by
      revert hw
      obtain rfl | rfl := hf <;> cases i.operation <;> decide
    have hstatus := exec_status h
    obtain ⟨b, hb⟩ : ∃ b, t.p = pulledStatus b := by
      obtain hop | hop := hpulled <;>
      · rw [hop] at hstatus
        exact hstatus
    rw [hb, getFlag_pulledStatus, if_pos hf]
  · exact (exec_keeps_flag h hw).trans hclear

/-- Settles O5: memory by `afterOp_mem`, whose writes are accesses in memory, and the status by `exec_keeps_clear`. -/
theorem stepKeepsInvariant : Obligations.StepKeepsInvariant := by
  intro s t hinv hstep
  obtain ⟨i, -, hexec⟩ := step_eq_next hstep
  obtain ⟨hall, hafter⟩ := exec_eq_next hexec
  obtain ⟨w, haddr, hmem⟩ := afterOp_mem i.operand s i.operation
  rw [← hafter] at hmem
  have hcfg : t.cfg = s.cfg := hafter ▸ afterOp_cfg i.operand s i.operation
  have hin : ∀ a ∈ w.map Prod.fst, a < s.cfg.memSize := by
    rw [haddr]
    exact List.forall_mem_map.mpr fun x hx =>
      hall x (List.mem_append_right _ (writeAccesses_subset s i.operand i.operation hx))
  constructor
  case cfgWf => exact hcfg ▸ hinv.cfgWf
  case memWf => exact hmem ▸ Memory.wf_setAll hinv.memWf w
  case memWithin => exact hmem ▸ hcfg ▸ Memory.within_setAll hinv.memWithin hin
  case breakClear => exact exec_keeps_clear hexec (.inl rfl) hinv.breakClear
  case unusedClear => exact exec_keeps_clear hexec (.inr rfl) hinv.unusedClear

/-! ### Runs -/

/-- What every step keeps, every run keeps. -/
theorem multipleSteps_keeps {P : State → Prop} (hstep : ∀ s t, P s → step s = .next t → P t) {n : Nat} {s t : State}
    (hs : P s) (h : multipleSteps n s = .ok t) : P t := by
  induction n generalizing t with
  | zero =>
    cases h
    exact hs
  | succ n ih =>
    obtain ⟨u, hu, hut⟩ := multipleSteps_succ_eq_ok.mp h
    exact hstep u t (ih hu) hut

theorem step_keeps_cfg {s t : State} (h : step s = .next t) : t.cfg = s.cfg := by
  obtain ⟨i, -, hexec⟩ := step_eq_next h
  obtain ⟨-, rfl⟩ := exec_eq_next hexec
  exact afterOp_cfg i.operand s i.operation

/-- Settles O53: a step by `afterOp_cfg`, a run by `multipleSteps_keeps`. -/
theorem parametersNeverChange : Obligations.ParametersNeverChange :=
  ⟨fun _ _ h => step_keeps_cfg h, fun _ s _ h =>
    multipleSteps_keeps (P := fun u => u.cfg = s.cfg) (fun _ _ hu h => (step_keeps_cfg h).trans hu) rfl h⟩

/-! ### Where runs begin -/

theorem risesAbove_cellsFrom {lo a : Nat} (h : lo < a) (byteAt : Nat → Byte) (n : Nat) :
    Memory.risesAbove lo (cellsFrom byteAt a n) = true := by
  induction n generalizing lo a with
  | zero => rfl
  | succ n ih =>
    rw [cellsFrom]
    split
    · exact ih (by omega)
    · simp [Memory.risesAbove, h, ih (Nat.lt_succ_self a)]

/-- The cells listed rise from the first address, hold no blank byte, and lie on the `n` addresses. -/
theorem mem_cellsFrom {byteAt : Nat → Byte} {a n : Nat} {c : Host.Cell} (h : c ∈ cellsFrom byteAt a n) :
    c.2 ≠ Memory.blank ∧ c.1 < a + n := by
  induction n generalizing a with
  | zero => cases h
  | succ n ih =>
    rw [cellsFrom] at h
    split at h
    · obtain ⟨hblank, hlt⟩ := ih h
      exact ⟨hblank, by omega⟩
    · next hb =>
      obtain rfl | h := List.mem_cons.mp h
      · exact ⟨hb, by simp⟩
      · obtain ⟨hblank, hlt⟩ := ih h
        exact ⟨hblank, by omega⟩

theorem sorted_cellsFrom (byteAt : Nat → Byte) (a n : Nat) : (cellsFrom byteAt a n).sorted = true := by
  induction n generalizing a with
  | zero => rfl
  | succ n ih =>
    rw [cellsFrom]
    split
    · exact ih (a + 1)
    · exact risesAbove_cellsFrom (Nat.lt_succ_self a) byteAt n

/-- Settles O3: the five parts evaluate. -/
theorem resetMeetsInvariant : Obligations.ResetMeetsInvariant := ⟨rfl, rfl, rfl, rfl, rfl⟩

/-- Settles O4: the loaded memory is `cellsFrom` on the addresses of memory, and P is that of reset. -/
theorem loadMeetsInvariant : Obligations.LoadMeetsInvariant := by
  intro cfg fill image s hcfg hload
  unfold load at hload
  split at hload
  · cases hload
    refine ⟨hcfg, ?_, ?_, resetMeetsInvariant.breakClear, resetMeetsInvariant.unusedClear⟩
    · rw [Memory.wf, sorted_cellsFrom, Bool.true_and, List.all_eq_true]
      exact fun c hc => bne_iff_ne.mpr (mem_cellsFrom hc).1
    · rw [Memory.within, List.all_eq_true]
      exact fun c hc => decide_eq_true (by simpa using (mem_cellsFrom hc).2)
  · cases hload

/-- Addresses that all hold the blank byte list no cell. -/
theorem cellsFrom_blank (a n : Nat) : cellsFrom (fun _ => Memory.blank) a n = [] := by
  induction n generalizing a with
  | zero => rfl
  | succ n ih => rw [cellsFrom, if_pos rfl, ih]

/-- Settles O2: the empty image fits, and with FILL = 0 every byte is blank. -/
theorem resetIsLoadOfEmptyImage : Obligations.ResetIsLoadOfEmptyImage := by
  have hbyte : loadedByte (fun _ => 0) [] = fun _ => Memory.blank := rfl
  rw [Obligations.ResetIsLoadOfEmptyImage, load_of_fits (Nat.zero_le _), loadedState, hbyte, cellsFrom_blank]
  rfl

/-- Bits 5 and 4 of P as the two flags. -/
theorem and_0x30_eq_zero {p : Byte} : p &&& 0x30#8 = 0 ↔ getFlag p .b = false ∧ getFlag p .u = false := by
  revert p
  decide

/-- Settles O6: the state of a failed run is that of a completed shorter one, and every completed run keeps the invariant that the
load meets. -/
theorem reachableStatusBitsReadZero : Obligations.ReachableStatusBitsReadZero := by
  intro cfg fill image n s t hcfg hload hrun
  have hinv : s.Inv := loadMeetsInvariant cfg fill image s hcfg hload
  have hreach : ∃ k, multipleSteps k s = .ok t := by
    obtain hok | ⟨k, e, hfailed⟩ := hrun
    · exact ⟨n, hok⟩
    · obtain ⟨-, hok, -⟩ := multipleSteps_eq_failed.mp hfailed
      exact ⟨k, hok⟩
  obtain ⟨k, hok⟩ := hreach
  have ht : t.Inv := multipleSteps_keeps stepKeepsInvariant hinv hok
  exact and_0x30_eq_zero.mpr ⟨ht.breakClear, ht.unusedClear⟩

/-! ### One write -/

/-- Settles O15: the write is `memWrite_eq_ok`'s, with one byte changed in a canonical memory. -/
theorem byteWriteChangesOneByte : Obligations.ByteWriteChangesOneByte := by
  intro s a v hwf
  exact ⟨fun hin => ⟨s.mem.set a v, memWrite_eq_ok.mpr ⟨hin, rfl⟩, bytesWritten_set hwf a v, Memory.wf_set hwf a v⟩,
    fun hout => memWrite_eq_error.mpr ⟨hout, rfl⟩⟩

end Sys2Proof.Machine
end

section
/-! SUPPORT and PROOFS of the family 60_exceptions.md: a step in closed form, by its list of accesses, and so which failures a step can
have, the first bad access among them, and how many accesses it makes. -/

namespace Sys2Proof.Machine

/-! ### A step as accesses -/

theorem outcomeAfter_cons (size : Nat) (x : Access) (l : List Access) (out : Out) :
    outcomeAfter size (x :: l) out = if x.addr < size then outcomeAfter size l out else .fault (.outOfBounds x.addr) := by
  split
  · next h => simp [outcomeAfter, firstOut, h]
  · next h => simp [outcomeAfter, firstOut, Nat.le_of_not_lt h]

theorem fetchOperand_accessing (s : State) (form : Form) :
    fetchOperand s form = accessing s.cfg.memSize ((formAccesses s form).1.map Access.addr) (formAccesses s form).2 := by
  cases form with
  | bare i => rfl
  | byte g =>
    rw [fetchOperand, memRead_accessing, accessing_map]
    rfl
  | word g =>
    rw [fetchOperand, memReadWord_accessing, accessing_map]
    rfl

/-- How a step ends once its accesses are in memory: the undefined opcode's fault (60_exceptions.md R202), or its instruction's
completion. -/
def stepCompletion (s : State) : Out :=
  match formOf (s.mem.get s.pc.toNat) with
  | none => .fault (.undefinedOpcode (s.mem.get s.pc.toNat))
  | some form => completion (formAccesses s form).2.operand s (formAccesses s form).2.operation

theorem stepAccesses_of_undefined {s : State} (h : formOf (s.mem.get s.pc.toNat) = none) :
    stepAccesses s = [⟨.opcodeFetch, s.pc.toNat⟩] := by
  simp [stepAccesses, fetchAddr, h]

theorem stepAccesses_of_form {s : State} {form : Form} (h : formOf (s.mem.get s.pc.toNat) = some form) :
    stepAccesses s =
      ⟨.opcodeFetch, s.pc.toNat⟩ :: ((formAccesses s form).1 ++ execAccesses s (formAccesses s form).2) := by
  simp [stepAccesses, fetchAddr, h]

/-- A step makes the accesses of `stepAccesses` in order, then completes. -/
theorem step_eq_outcomeAfter (s : State) :
    step s = outcomeAfter s.cfg.memSize (stepAccesses s) (stepCompletion s) := by
  by_cases hpc : s.pc.toNat < s.cfg.memSize
  · have hread : memRead s s.pc.toNat = .ok (s.mem.get s.pc.toNat) := memRead_eq_ok.mpr ⟨hpc, rfl⟩
    cases hform : formOf (s.mem.get s.pc.toNat) with
    | none =>
      rw [step_of_fetch_error (fetch_undefined hread (formOf_eq_none.mp hform)), stepAccesses_of_undefined hform,
        stepCompletion, hform, outcomeAfter_cons, if_pos hpc, outcomeAfter_nil]
    | some form =>
      rw [step, fetch_of_form hread hform, fetchOperand_accessing, stepAccesses_of_form hform, stepCompletion, hform,
        outcomeAfter_cons, if_pos hpc, outcomeAfter_append, ← exec_eq_outcomeAfter, accessing, outcomeAfter]
      cases firstOut s.cfg.memSize ((formAccesses s form).1.map Access.addr) <;> rfl
  · rw [step_of_fetch_error (fetch_out_of_range (Nat.le_of_not_lt hpc)), stepAccesses, outcomeAfter_cons]
    exact (if_neg hpc).symm

/-- When every access of a step is in memory and the opcode is defined, the instruction fetched is the form's. -/
theorem fetch_of_accesses {s : State} {form : Form} (hform : formOf (s.mem.get s.pc.toNat) = some form)
    (hall : ∀ x ∈ stepAccesses s, x.addr < s.cfg.memSize) : fetch s = .ok (formAccesses s form).2 := by
  rw [stepAccesses_of_form hform, List.forall_mem_cons, List.forall_mem_append] at hall
  obtain ⟨hpc, hoperand, -⟩ := hall
  have hnone : firstOut s.cfg.memSize ((formAccesses s form).1.map Access.addr) = none :=
    firstOut_eq_none.mpr (List.forall_mem_map.mpr hoperand)
  rw [fetch_of_form (memRead_eq_ok.mpr ⟨hpc, rfl⟩) hform, fetchOperand_accessing, accessing, hnone]

/-! ### Failures -/

theorem outcomeAfter_of_error {size : Nat} {l : List Access} {α : Type} {v : α} {f : Fault}
    (h : accessing size (l.map Access.addr) v = .error f) (out : Out) : outcomeAfter size l out = .fault f := by
  rw [accessing] at h
  cases hfirst : firstOut size (l.map Access.addr) with
  | none =>
    rw [hfirst] at h
    cases h
  | some a =>
    rw [hfirst] at h
    cases h
    rw [outcomeAfter, hfirst]

/-- Settles O22: the resolver's accesses are the first of the instruction's. -/
theorem resolverFaultStopsEveryOperation : Obligations.ResolverFaultStopsEveryOperation := by
  intro i m s f hm hf
  rw [resolveMem_accessing] at hf
  rw [exec_eq_outcomeAfter, execAccesses, hm, outcomeAfter_append, outcomeAfter_of_error hf]

/-- A step has all its accesses in memory and completes, or faults with an address out of range. -/
theorem step_cases (s : State) :
    ((∀ x ∈ stepAccesses s, x.addr < s.cfg.memSize) ∧ step s = stepCompletion s) ∨
      ∃ a, s.cfg.memSize ≤ a ∧ step s = .fault (.outOfBounds a) := by
  rw [step_eq_outcomeAfter]
  exact outcomeAfter_cases s.cfg.memSize (stepAccesses s) (stepCompletion s)

/-- The faults of a step: an address out of range, or the undefined opcode fetched (60_exceptions.md R201, R202). -/
theorem step_eq_fault {s : State} {f : Fault} (h : step s = .fault f) :
    (∃ a, f = .outOfBounds a ∧ s.cfg.memSize ≤ a) ∨
      ∃ op, f = .undefinedOpcode op ∧ op ∈ undefinedOpcodes ∧ memRead s s.pc.toNat = .ok op := by
  obtain ⟨hall, hcompletion⟩ | ⟨a, ha, hout⟩ := step_cases s
  · rw [hcompletion, stepCompletion] at h
    split at h
    · next hform =>
      cases h
      rw [stepAccesses_of_undefined hform, List.forall_mem_singleton] at hall
      exact .inr ⟨_, rfl, formOf_eq_none.mp hform, memRead_eq_ok.mpr ⟨hall, rfl⟩⟩
    · next form _ =>
      obtain ⟨hc, -⟩ | hc := completion_cases (formAccesses s form).2.operand s (formAccesses s form).2.operation <;>
        cases hc.symm.trans h
  · cases hout.symm.trans h
    exact .inl ⟨a, rfl, ha⟩

/-- The refusals of a step: decimal arithmetic alone (60_exceptions.md R206). -/
theorem step_eq_refused {s : State} {r : Refusal} (h : step s = .refused r) :
    r = .decimalArithmetic ∧ decimalRefused s = true ∧ ∃ i, fetch s = .ok i ∧ i.operation ∈ [.adc, .sbc] := by
  obtain ⟨hall, hcompletion⟩ | ⟨a, -, hout⟩ := step_cases s
  · rw [hcompletion, stepCompletion] at h
    split at h
    · cases h
    · next form hform =>
      obtain ⟨hc, hop, hdec⟩ | hc := completion_cases (formAccesses s form).2.operand s (formAccesses s form).2.operation
      · cases hc.symm.trans h
        exact ⟨rfl, hdec, _, fetch_of_accesses hform hall, hop⟩
      · cases hc.symm.trans h
  · cases hout.symm.trans h

/-- Settles O56: the kinds are those of `step_eq_fault` and `step_eq_refused`, and the index is `multipleSteps_eq_failed`'s. -/
theorem failureKinds : Obligations.FailureKinds := by
  refine ⟨fun _ _ => ⟨rfl, rfl, rfl⟩, fun s f h => step_eq_fault h, fun s h => ?_, fun s r h => ?_, fun n k s t e h => ?_⟩
  · obtain ⟨a, ha, -⟩ | ⟨op, hop, -⟩ := step_eq_fault h
    · cases ha
    · cases hop
  · obtain ⟨hr, hdec, hfetched⟩ := step_eq_refused h
    obtain ⟨hmode, hd⟩ := (decimalRefused_iff s).mp hdec
    exact ⟨hr, hmode, hd, hfetched⟩
  · obtain ⟨hk, -⟩ := multipleSteps_eq_failed.mp h
    exact hk

theorem firstOutOfBounds_eq (s : State) :
    firstOutOfBounds s = firstOut s.cfg.memSize ((stepAccesses s).map Access.addr) := by
  rw [firstOutOfBounds, firstOut, List.find?_map]
  rfl

/-- Settles O57: `step_eq_outcomeAfter` with the first bad access, and without one the step's completion. -/
theorem firstBadAccessIsReported : Obligations.FirstBadAccessIsReported := by
  refine fun s => ⟨fun a ha => ?_, fun hnone => ?_⟩
  · rw [firstOutOfBounds_eq] at ha
    rw [step_eq_outcomeAfter, outcomeAfter, ha]
  · rw [firstOutOfBounds_eq] at hnone
    have hall := List.forall_mem_map.mp (firstOut_eq_none.mp hnone)
    rw [step_eq_outcomeAfter, outcomeAfter_of_all hall, stepCompletion]
    refine ⟨fun hundef => by rw [formOf_eq_none.mpr hundef], fun hdef => ?_⟩
    obtain ⟨form, hform⟩ := Option.ne_none_iff_exists'.mp (mt formOf_eq_none.mp hdef)
    rw [hform, ← decimalRefused_iff]
    exact ⟨_, fetch_of_accesses hform hall, fun h => completion_refused h.1 h.2 _, fun h => ⟨_, completion_next h _⟩⟩

/-! ### How many accesses -/

/-- The accesses of a mode's resolver after the operand bytes (40_sequencer_addressing.md R73 to R85). -/
def resolverCount : Mode → Nat
  | .implied | .accumulator | .immediate => 0
  | .zeroPage | .zeroPageX | .zeroPageY | .absolute | .absoluteX | .absoluteY => 1
  | .indirect | .indirectX | .indirectY => 3

/-- The most accesses an operation makes itself (files 41 to 48). -/
def executorCount : Operation → Nat
  | .sta | .stx | .sty | .inc | .dec | .asl | .lsr | .rol | .ror | .pha | .php | .pla | .plp => 1
  | .jsr | .rts => 2
  | .rti => 3
  | .brk => 5
  | _ => 0

theorem length_resolverAccesses (s : State) (o : Operand) : (resolverAccesses s o).length = resolverCount o.mode := by
  cases o with
  | implied | accumulator | immediate => rfl
  | mem m => cases m <;> rfl

theorem length_executorAccesses_le (s : State) (o : Operand) (op : Operation) :
    (executorAccesses s o op).length ≤ executorCount op := by
  have hstore : (storeAccess s o).length ≤ 1 := by cases o <;> simp [storeAccess]
  cases op with
  | sta | stx | sty | inc | dec | asl | lsr | rol | ror => exact hstore
  | _ => exact Nat.le_refl _

/-- A form makes one access for each operand byte. -/
theorem length_formAccesses {op : Byte} {form : Form} (h : form.Fits op) (s : State) :
    (formAccesses s form).1.length = (formAccesses s form).2.operand.bytes.length := by
  cases form with
  | bare i => exact (congrArg List.length h.2).symm
  | byte g =>
    obtain ⟨-, hbytes, -⟩ := h (s.mem.get (fetchAddr s.pc 1))
    exact (congrArg List.length hbytes).symm
  | word g =>
    obtain ⟨-, hbytes, -⟩ := h (peekWord s (fetchAddr s.pc 1))
    exact (congrArg List.length hbytes).symm

/-- The operand bytes that are read are as many as the mode's width under IMM_WIDTH = 1, where there is no pad byte. -/
theorem length_bytes_eq (o : Operand) : o.bytes.length = modeWidth .one o.mode := by
  rw [← o.length_bytes_add_padBytes .one]
  cases o <;> rfl

/-- In every pair of the table by mnemonic the operand bytes, the resolver and the operation make at most five accesses. -/
theorem count_le_five (o : Operation) :
    ∀ m ∈ legalModes o, modeWidth .one m + resolverCount m + executorCount o ≤ 5 := by
  cases o <;> decide

theorem length_bytes_add_execAccesses_le (s : State) (i : Instr) :
    i.operand.bytes.length + (execAccesses s i).length ≤ 5 := by
  have hcount := count_le_five i.operation i.mode i.mode_mem_legalModes
  have hexecutor := length_executorAccesses_le s i.operand i.operation
  rw [execAccesses, List.length_append, length_resolverAccesses, length_bytes_eq]
  rw [Instr.mode] at hcount
  omega

/-- Settles O58: the opcode fetch, then at most five by `length_bytes_add_execAccesses_le`; BRK's are listed. -/
theorem atMostSixAccesses : Obligations.AtMostSixAccesses := by
  refine fun s => ⟨?_, rfl, fun hbrk => ?_⟩
  · cases hform : formOf (s.mem.get s.pc.toNat) with
    | none => simp [stepAccesses_of_undefined hform]
    | some form =>
      have hlen := length_formAccesses (formOf_fits hform) s
      have hle := length_bytes_add_execAccesses_le s (formAccesses s form).2
      rw [stepAccesses_of_form hform, List.length_cons, List.length_append]
      omega
  · have hform : formOf (s.mem.get s.pc.toNat) = some (.bare .brk) := by
      rw [hbrk]
      rfl
    rw [stepAccesses_of_form hform]
    rfl

end Sys2Proof.Machine
end

section
/-! SUPPORT and PROOFS of the families 48_flag_control_nop.md and of pairs of instructions: one flag written, and what a return or a
pull restores after the call, break or push before it. -/

namespace Sys2Proof.Machine

/-! ### Flag control -/

/-- The seven flag-control instructions, each with its flag and the value it writes (R190 to R196). -/
def flagControls : List (Instr × Flag × Bool) :=
  [(.clc, .c, false), (.sec, .c, true), (.cli, .i, false), (.sei, .i, true), (.cld, .d, false), (.sed, .d, true),
    (.clv, .v, false)]

theorem exec_of_flagControl {i : Instr} {f : Flag} {v : Bool} (h : (i, f, v) ∈ flagControls) (s : State) :
    exec i s = .next { s with p := putFlag s.p f v, pc := s.pc + 1 } := by
  rw [← pcSeq_implied]
  simp only [flagControls, List.mem_cons, List.not_mem_nil, or_false, Prod.mk.injEq] at h
  obtain ⟨rfl, rfl, rfl⟩ | ⟨rfl, rfl, rfl⟩ | ⟨rfl, rfl, rfl⟩ | ⟨rfl, rfl, rfl⟩ | ⟨rfl, rfl, rfl⟩ | ⟨rfl, rfl, rfl⟩ |
    ⟨rfl, rfl, rfl⟩ := h <;> exact exec_eq _ s

/-- Settles O45: each instruction is `exec_of_flagControl`; NOP only advances. -/
theorem flagControlWritesOneFlag : Obligations.FlagControlWritesOneFlag := by
  refine ⟨⟨encodedAs_of_perm (by decide), encodedAs_of_perm (by decide), encodedAs_of_perm (by decide),
    encodedAs_of_perm (by decide), encodedAs_of_perm (by decide), encodedAs_of_perm (by decide),
    encodedAs_of_perm (by decide), encodedAs_of_perm (by decide)⟩,
    fun s ⟨i, f, v⟩ hx => ⟨_, flagsWritten_putFlag s.p f v, exec_of_flagControl hx s⟩, fun s => ?_⟩
  rw [← pcSeq_implied]
  exact exec_eq .nop s

/-! ### What was pushed -/

theorem accessing_of_all {α : Type} {size : Nat} {l : List Nat} (h : ∀ a ∈ l, a < size) (v : α) :
    accessing size l v = .ok v := by
  rw [accessing, firstOut_eq_none.mpr h]

/-- The accesses of an operation itself are in memory when it answers a next state. -/
theorem executorAccesses_lt {i : Instr} {s t : State} (h : exec i s = .next t) :
    ∀ a ∈ (executorAccesses s i.operand i.operation).map Access.addr, a < s.cfg.memSize := by
  obtain ⟨hall, -⟩ := exec_eq_next h
  exact List.forall_mem_map.mpr fun x hx => hall x (List.mem_append_right _ hx)

theorem wf_pushedWord {s : State} (hwf : s.mem.wf = true) (w : Word) : (pushedWord w s).wf = true :=
  Memory.wf_set (Memory.wf_set hwf _ _) _ _

theorem get_pushedWord_hi {s : State} (hwf : s.mem.wf = true) (w : Word) :
    (pushedWord w s).get (stackAddr s.sp) = hiByte w := by
  have hne : stackAddr s.sp ≠ stackAddr (s.sp - 1) := stackAddr_inj.not.mpr (by bv_omega)
  rw [pushedWord, Memory.get_set_ne _ _ hne, Memory.get_set hwf, if_pos rfl]

theorem get_pushedWord_lo {s : State} (hwf : s.mem.wf = true) (w : Word) :
    (pushedWord w s).get (stackAddr (s.sp - 1)) = loByte w := by
  rw [pushedWord, Memory.get_set (Memory.wf_set hwf _ _), if_pos rfl]

/-- The word pushed is the word pulled. -/
theorem join_pushedWord {s : State} (hwf : s.mem.wf = true) (w : Word) :
    joinBytes ((pushedWord w s).get (stackAddr s.sp)) ((pushedWord w s).get (stackAddr (s.sp - 1))) = w := by
  rw [get_pushedWord_hi hwf, get_pushedWord_lo hwf, joinBytes_split]

/-! ### JSR, then RTS -/

/-- RTS where a word lies pushed: PC is the word plus one, and SP what it was before the pushes. -/
theorem exec_rts_of_pushed {s t : State} {w : Word} (hwf : s.mem.wf = true) (hcfg : t.cfg = s.cfg) (hsp : t.sp = s.sp - 2)
    (hmem : t.mem = pushedWord w s) (hin : ∀ a ∈ [stackAddr s.sp, stackAddr (s.sp - 1)], a < s.cfg.memSize) :
    exec .rts t = .next { t with sp := s.sp, pc := w + 1#16 } := by
  have hone : t.sp + 1 = s.sp - 1 := by bv_omega
  have htwo : t.sp + 2 = s.sp := by bv_omega
  have hpulls : ∀ a ∈ [stackAddr (s.sp - 1), stackAddr s.sp], a < s.cfg.memSize := by simpa [and_comm] using hin
  rw [exec_rts_accessing, hone, htwo, hmem, hcfg, join_pushedWord hwf, accessing_of_all hpulls, finish_ok]

/-- Settles O46: RTS pulls the word JSR pushed, the address of its last byte. -/
theorem callThenReturnResumesAfterCall : Obligations.CallThenReturnResumesAfterCall := by
  intro a s t hwf h
  have hin := executorAccesses_lt h
  obtain ⟨-, rfl⟩ := exec_eq_next h
  obtain ⟨hseq, -⟩ := wordOperand_fetched (m := .absolute a) rfl s
  have hret : pcSeq s (.mem (.absolute a)) + 65535#16 + 1#16 = s.pc + 3 := by
    rw [hseq]
    bv_omega
  rw [← hret]
  exact exec_rts_of_pushed hwf rfl rfl rfl (pushes_two s ▸ hin)

/-! ### BRK, then RTI -/

theorem exec_rti_accessing (s : State) :
    exec .rti s = finish (accessing s.cfg.memSize [stackAddr (s.sp + 1), stackAddr (s.sp + 2), stackAddr (s.sp + 3)]
      { s with
        p := pulledStatus (s.mem.get (stackAddr (s.sp + 1))), sp := s.sp + 3
        pc := joinBytes (s.mem.get (stackAddr (s.sp + 3))) (s.mem.get (stackAddr (s.sp + 2))) }) :=
  (exec_eq .rti s).trans (congrArg finish (returnFromBreak_accessing (s.advance .implied)))

/-- RTI where a word and then a byte lie pushed: PC is the word, P the byte with bits 5:4 cleared, and SP what it was before the
pushes. -/
theorem exec_rti_of_pushed {s t : State} {w : Word} {v : Byte} (hwf : s.mem.wf = true) (hcfg : t.cfg = s.cfg)
    (hsp : t.sp = s.sp - 3) (hmem : t.mem = (pushedWord w s).set (stackAddr (s.sp - 2)) v)
    (hin : ∀ a ∈ [stackAddr s.sp, stackAddr (s.sp - 1), stackAddr (s.sp - 2)], a < s.cfg.memSize) :
    exec .rti t = .next { t with p := pulledStatus v, sp := s.sp, pc := w } := by
  have hone : t.sp + 1 = s.sp - 2 := by bv_omega
  have htwo : t.sp + 2 = s.sp - 1 := by bv_omega
  have hthree : t.sp + 3 = s.sp := by bv_omega
  have hstatus : t.mem.get (stackAddr (s.sp - 2)) = v := by
    rw [hmem, Memory.get_set (wf_pushedWord hwf w), if_pos rfl]
  have hword : joinBytes (t.mem.get (stackAddr s.sp)) (t.mem.get (stackAddr (s.sp - 1))) = w := by
    rw [hmem, Memory.get_set_ne _ _ (stackAddr_inj.not.mpr (by bv_omega)),
      Memory.get_set_ne _ _ (stackAddr_inj.not.mpr (by bv_omega)), join_pushedWord hwf]
  have hpulls : ∀ a ∈ [stackAddr (s.sp - 2), stackAddr (s.sp - 1), stackAddr s.sp], a < s.cfg.memSize :=
    fun a ha => hin a (List.mem_reverse.mp ha)
  rw [exec_rti_accessing, hone, htwo, hthree, hstatus, hword, hcfg, accessing_of_all hpulls, finish_ok]

/-- A status with bits 5:4 clear is what a pull of it restores after a push. -/
theorem pulledStatus_pushedStatus {p : Byte} (h : p &&& 0x30#8 = 0) : pulledStatus (pushedStatus p) = p := by
  obtain ⟨hb, hu⟩ := and_0x30_eq_zero.mp h
  apply status_ext
  intro f
  rw [getFlag_pulledStatus, getFlag_pushedStatus]
  cases f <;> simp [hb, hu]

/-- Settles O47: RTI pulls the status and the word BRK pushed; BRK's own change of P is undone with it. -/
theorem breakThenReturnSkipsPadding : Obligations.BreakThenReturnSkipsPadding := by
  intro s t hwf hclear h
  have hin := executorAccesses_lt h
  obtain ⟨-, rfl⟩ := exec_eq_next h
  have hpushes : ∀ a ∈ (pushes s 3).map Access.addr, a < s.cfg.memSize := fun a ha =>
    hin a (List.map_append ▸ List.mem_append_left _ ha)
  have hret : pcSeq s .implied + 1#16 = s.pc + 2 := by
    rw [pcSeq_implied]
    bv_omega
  have hrti := exec_rti_of_pushed (t := afterOp .implied s .brk) hwf rfl rfl rfl (pushes_three s ▸ hpushes)
  rw [pulledStatus_pushedStatus hclear, hret] at hrti
  exact hrti

/-! ### PHP, then PLP; PHA, then PLA -/

/-- PLA where a byte lies pushed: A is the byte, N and Z are set from it, and SP is what it was before the push. -/
theorem exec_pla_of_pushed {s t : State} {v : Byte} (hwf : s.mem.wf = true) (hcfg : t.cfg = s.cfg) (hsp : t.sp = s.sp - 1)
    (hmem : t.mem = s.mem.set (stackAddr s.sp) v) (hin : stackAddr s.sp < s.cfg.memSize) :
    exec .pla t = .next { t with a := v, p := setNZ t.p v, sp := s.sp, pc := t.pc + 1 } := by
  have hone : t.sp + 1 = s.sp := by bv_omega
  have hbyte : t.mem.get (stackAddr s.sp) = v := by rw [hmem, Memory.get_set hwf, if_pos rfl]
  rw [exec_pla_accessing, hone, hbyte, hcfg, accessing_one_of_lt hin, finish_ok]

/-- PLP where a byte lies pushed: P is the byte with bits 5:4 cleared, and SP is what it was before the push. -/
theorem exec_plp_of_pushed {s t : State} {v : Byte} (hwf : s.mem.wf = true) (hcfg : t.cfg = s.cfg) (hsp : t.sp = s.sp - 1)
    (hmem : t.mem = s.mem.set (stackAddr s.sp) v) (hin : stackAddr s.sp < s.cfg.memSize) :
    exec .plp t = .next { t with p := pulledStatus v, sp := s.sp, pc := t.pc + 1 } := by
  have hone : t.sp + 1 = s.sp := by bv_omega
  have hbyte : t.mem.get (stackAddr s.sp) = v := by rw [hmem, Memory.get_set hwf, if_pos rfl]
  rw [exec_plp_accessing, hone, hbyte, hcfg, accessing_one_of_lt hin, finish_ok]

/-- Settles O48: PLP and PLA pull the byte that PHP and PHA pushed. -/
theorem pushThenPullRestores : Obligations.PushThenPullRestores := by
  intro s t hwf
  have hpc : pcSeq s .implied + 1 = s.pc + 2 := by
    rw [pcSeq_implied]
    bv_omega
  have hpush : (∀ a ∈ (pushes s 1).map Access.addr, a < s.cfg.memSize) → stackAddr s.sp < s.cfg.memSize := by
    rw [pushes_one]
    exact List.forall_mem_singleton.mp
  rw [← hpc]
  refine ⟨fun hclear h => ?_, fun h => ⟨setNZ s.p s.a, flagsWritten_setNZ s.p s.a, ?_⟩⟩
  · have hin := hpush (executorAccesses_lt h)
    obtain ⟨-, rfl⟩ := exec_eq_next h
    have hplp := exec_plp_of_pushed (t := afterOp .implied s .php) hwf rfl rfl rfl hin
    rw [pulledStatus_pushedStatus hclear] at hplp
    exact hplp
  · have hin := hpush (executorAccesses_lt h)
    obtain ⟨-, rfl⟩ := exec_eq_next h
    exact exec_pla_of_pushed hwf rfl rfl rfl hin

end Sys2Proof.Machine
end

section
/-! SUPPORT and PROOFS of noninterference: a part of the state that an instruction does not read changes nothing of its outcome but that
part. Two states that resolve the operand alike make the same accesses, and then only `afterResolved` is left to compare. -/

namespace Sys2Proof.Machine

/-! ### Two states with the same accesses -/

theorem mapNext_outcomeAfter (g : State → State) (size : Nat) (l : List Access) (out : Out) :
    mapNext g (outcomeAfter size l out) = outcomeAfter size l (mapNext g out) := by
  unfold outcomeAfter
  cases firstOut size (l.map Access.addr) <;> rfl

theorem mapNext_id (out : Out) : mapNext id out = out := by
  cases out <;> rfl

theorem completion_congr {o : Operand} {s s' : State} {op : Operation} {g : State → State}
    (hdec : op ∈ [.adc, .sbc] → decimalRefused s' = decimalRefused s) (hafter : afterOp o s' op = g (afterOp o s op)) :
    completion o s' op = mapNext g (completion o s op) := by
  cases op with
  | adc | sbc =>
    rw [completion, completion, hdec (by decide), hafter]
    split <;> rfl
  | _ => exact congrArg Host.Outcome.next hafter

theorem pushes_congr {s s' : State} (h : s'.sp = s.sp) (n : Nat) : pushes s' n = pushes s n := by
  induction n with
  | zero => rfl
  | succ n ih => rw [pushes, pushes, ih, h]

theorem pulls_congr {s s' : State} (h : s'.sp = s.sp) (n : Nat) : pulls s' n = pulls s n := by
  induction n with
  | zero => rfl
  | succ n ih => rw [pulls, pulls, ih, h]

/-- An instruction's accesses depend on SP and on what its memory operand resolves to. -/
theorem execAccesses_congr {i : Instr} {s s' : State} (hsp : s'.sp = s.sp)
    (htarget : ∀ m, i.operand = .mem m → targetOf s' m = targetOf s m) : execAccesses s' i = execAccesses s i := by
  have hresolver : resolverAccesses s' i.operand = resolverAccesses s i.operand := by
    cases ho : i.operand with
    | mem m => rw [resolverAccesses, resolverAccesses, htarget m ho]
    | _ => rfl
  have hstore : storeAccess s' i.operand = storeAccess s i.operand := by
    cases ho : i.operand with
    | mem m => rw [storeAccess, storeAccess, htarget m ho]
    | _ => rfl
  rw [execAccesses, execAccesses, hresolver]
  refine congrArg _ ?_
  cases i.operation with
  | sta | stx | sty | inc | dec | asl | lsr | rol | ror => exact hstore
  | _ => simp only [executorAccesses, pushes_congr hsp, pulls_congr hsp]

/-- Two states that resolve an instruction's operand alike, and whose states after it correspond by `g`: so do the outcomes. -/
theorem exec_congr {i : Instr} {s s' : State} {g : State → State} (hcfg : s'.cfg = s.cfg) (hpc : s'.pc = s.pc)
    (hsp : s'.sp = s.sp) (htarget : ∀ m, i.operand = .mem m → targetOf s' m = targetOf s m)
    (hvalue : valueOf s' i.operand = valueOf s i.operand)
    (hdec : i.operation ∈ [.adc, .sbc] → decimalRefused s' = decimalRefused s)
    (hafter : ∀ r next, afterResolved i.operand r next s' i.operation = g (afterResolved i.operand r next s i.operation)) :
    exec i s' = mapNext g (exec i s) := by
  have hresolved : resolvedOf s' i.operand = resolvedOf s i.operand := by
    have haddr : targetAddr s' i.operand = targetAddr s i.operand := by
      cases ho : i.operand with
      | mem m => exact congrArg Prod.snd (htarget m ho)
      | _ => rfl
    rw [resolvedOf, resolvedOf, haddr, hvalue]
  have hseq : pcSeq s' i.operand = pcSeq s i.operand := by rw [pcSeq, pcSeq, hpc, hcfg]
  rw [exec_eq_outcomeAfter, exec_eq_outcomeAfter, mapNext_outcomeAfter, hcfg, execAccesses_congr hsp htarget]
  refine congrArg _ (completion_congr hdec ?_)
  rw [afterOp, afterOp, hresolved, hseq]
  exact hafter _ _

/-- The same where the states after it are equal if `w`, and correspond by `g` if not: the form of every claim below. -/
theorem exec_congr_ite {i : Instr} {s s' : State} {g : State → State} {w : Prop} [Decidable w] (hcfg : s'.cfg = s.cfg)
    (hpc : s'.pc = s.pc) (hsp : s'.sp = s.sp) (htarget : ∀ m, i.operand = .mem m → targetOf s' m = targetOf s m)
    (hvalue : valueOf s' i.operand = valueOf s i.operand)
    (hdec : i.operation ∈ [.adc, .sbc] → decimalRefused s' = decimalRefused s)
    (hafter : ∀ r next, afterResolved i.operand r next s' i.operation =
      if w then afterResolved i.operand r next s i.operation else g (afterResolved i.operand r next s i.operation)) :
    (¬ w → exec i s' = mapNext g (exec i s)) ∧ (w → exec i s' = exec i s) := by
  refine ⟨fun hw => ?_, fun hw => ?_⟩
  · exact exec_congr hcfg hpc hsp htarget hvalue hdec fun r next => (hafter r next).trans (if_neg hw)
  · rw [← mapNext_id (exec i s)]
    exact exec_congr hcfg hpc hsp htarget hvalue hdec fun r next => (hafter r next).trans (if_pos hw)

/-! ### The registers -/

theorem afterResolved_setA {o : Operand} (ho : o ≠ .accumulator) {op : Operation}
    (hread : op ∉ [.adc, .sbc, .and, .ora, .eor, .bit, .cmp, .sta, .tax, .tay, .pha]) (r : Resolved) (next : Word) (s : State)
    (v : Byte) :
    afterResolved o r next { s with a := v } op =
      if op ∈ [.lda, .txa, .tya, .pla] then afterResolved o r next s op
      else { afterResolved o r next s op with a := v } := by
  cases op with
  | adc | sbc | and | ora | eor | bit | cmp | sta | tax | tay | pha => exact absurd (by decide) hread
  | stx | sty | inc | dec | asl | lsr | rol | ror =>
    cases o with
    | accumulator => exact absurd rfl ho
    | _ => rfl
  | _ => rfl

theorem afterResolved_setX {op : Operation} (hread : op ∉ [.stx, .cpx, .inx, .dex, .txa, .txs]) (o : Operand) (r : Resolved)
    (next : Word) (s : State) (v : Byte) :
    afterResolved o r next { s with x := v } op =
      if op ∈ [.ldx, .tax, .tsx] then afterResolved o r next s op else { afterResolved o r next s op with x := v } := by
  cases op with
  | stx | cpx | inx | dex | txa | txs => exact absurd (by decide) hread
  | sta | sty | inc | dec | asl | lsr | rol | ror => cases o <;> rfl
  | _ => rfl

theorem afterResolved_setY {op : Operation} (hread : op ∉ [.sty, .cpy, .iny, .dey, .tya]) (o : Operand) (r : Resolved)
    (next : Word) (s : State) (v : Byte) :
    afterResolved o r next { s with y := v } op =
      if op ∈ [.ldy, .tay] then afterResolved o r next s op else { afterResolved o r next s op with y := v } := by
  cases op with
  | sty | cpy | iny | dey | tya => exact absurd (by decide) hread
  | sta | stx | inc | dec | asl | lsr | rol | ror => cases o <;> rfl
  | _ => rfl

theorem targetOf_setA (s : State) (v : Byte) (m : MemOperand) : targetOf { s with a := v } m = targetOf s m := by
  cases m <;> rfl

/-- X is read by the modes that index with it. -/
theorem targetOf_setX {m : MemOperand} {s : State} (hm : m.mode ∉ [.zeroPageX, .absoluteX, .indirectX])
    (hy : m.mode = .indirectY → s.cfg.indyIndex = .y) (v : Byte) : targetOf { s with x := v } m = targetOf s m := by
  cases m with
  | zeroPageX | absoluteX | indirectX => simp [MemOperand.mode] at hm
  | indirectY z => simp [targetOf, peekWord, indexOfIndirectY, hy rfl]
  | _ => rfl

/-- Y is read by the modes that index with it. -/
theorem targetOf_setY {m : MemOperand} {s : State} (hm : m.mode ∉ [.zeroPageY, .absoluteY])
    (hx : m.mode = .indirectY → s.cfg.indyIndex = .x) (v : Byte) : targetOf { s with y := v } m = targetOf s m := by
  cases m with
  | zeroPageY | absoluteY => simp [MemOperand.mode] at hm
  | indirectY z => simp [targetOf, peekWord, indexOfIndirectY, hx rfl]
  | _ => rfl

/-- The value of an operand, where its target is the same and it is not a register that differs. -/
theorem valueOf_congr {o : Operand} {s s' : State} (hmem : s'.mem = s.mem) (htarget : ∀ m, o = .mem m → targetOf s' m = targetOf s m)
    (ha : o = .accumulator → s'.a = s.a) : valueOf s' o = valueOf s o := by
  cases o with
  | implied | immediate => rfl
  | accumulator => exact ha rfl
  | mem m => rw [valueOf, valueOf, htarget m rfl, hmem]

/-- Settles O54: the operand resolves alike, and the state after is `afterResolved`'s, register by register. -/
theorem registersReadOnlyByTheirReaders : Obligations.RegistersReadOnlyByTheirReaders := by
  refine ⟨fun i s v hread ho => ?_, fun i s v hread hmode hindy => ?_, fun i s v hread hmode hindy => ?_⟩
  · have htarget (m : MemOperand) (_ : i.operand = .mem m) := targetOf_setA s v m
    exact exec_congr_ite rfl rfl rfl htarget (valueOf_congr rfl htarget fun h => absurd h ho) (fun _ => rfl)
      fun r next => afterResolved_setA ho hread r next s v
  · have htarget (m : MemOperand) (hm : i.operand = .mem m) : targetOf { s with x := v } m = targetOf s m := by
      rw [Instr.mode, hm] at hmode hindy
      exact targetOf_setX hmode hindy v
    exact exec_congr_ite rfl rfl rfl htarget (valueOf_congr rfl htarget fun _ => rfl) (fun _ => rfl)
      fun r next => afterResolved_setX hread i.operand r next s v
  · have htarget (m : MemOperand) (hm : i.operand = .mem m) : targetOf { s with y := v } m = targetOf s m := by
      rw [Instr.mode, hm] at hmode hindy
      exact targetOf_setY hmode hindy v
    exact exec_congr_ite rfl rfl rfl htarget (valueOf_congr rfl htarget fun _ => rfl) (fun _ => rfl)
      fun r next => afterResolved_setY hread i.operand r next s v

/-! ### The flags I and D -/

theorem getFlag_putFlag_ne {f g : Flag} (h : g ≠ f) (p : Byte) (v : Bool) : getFlag (putFlag p f v) g = getFlag p g := by
  rw [getFlag_putFlag, if_neg h]

theorem putFlag_same (p : Byte) (f : Flag) (v w : Bool) : putFlag (putFlag p f v) f w = putFlag p f w := by
  apply status_ext
  intro g
  simp only [getFlag_putFlag]
  split <;> rfl

theorem putFlag_comm {f g : Flag} (h : f ≠ g) (p : Byte) (v w : Bool) :
    putFlag (putFlag p f v) g w = putFlag (putFlag p g w) f v := by
  apply status_ext
  intro k
  simp only [getFlag_putFlag]
  by_cases hg : k = g
  · have hf : k ≠ f := fun hf => h (hf.symm.trans hg)
    rw [if_pos hg, if_neg hf, if_pos hg]
  · rw [if_neg hg, if_neg hg]

section
variable {f : Flag} (hf : f = .i ∨ f = .d)
include hf

/-- No flag computation but the flag's own writes I or D. -/
theorem ne_of_i_or_d : f ≠ .c ∧ f ≠ .z ∧ f ≠ .v ∧ f ≠ .n := by
  obtain rfl | rfl := hf <;> decide

theorem setNZ_putFlag (p : Byte) (b : Bool) (r : Byte) : setNZ (putFlag p f b) r = putFlag (setNZ p r) f b := by
  obtain ⟨-, hz, -, hn⟩ := ne_of_i_or_d hf
  rw [setNZ, setNZ, putFlag_comm hz, putFlag_comm hn]

theorem sumFlags_putFlag (p : Byte) (b : Bool) (t : Sum) : sumFlags (putFlag p f b) t = putFlag (sumFlags p t) f b := by
  obtain ⟨hc, -, hv, -⟩ := ne_of_i_or_d hf
  rw [sumFlags, sumFlags, putFlag_comm hc, putFlag_comm hv, setNZ_putFlag hf]

theorem compareFlags_putFlag (p : Byte) (b : Bool) (reg m : Byte) :
    compareFlags (putFlag p f b) reg m = putFlag (compareFlags p reg m) f b := by
  obtain ⟨hc, -⟩ := ne_of_i_or_d hf
  rw [compareFlags, compareFlags, putFlag_comm hc, setNZ_putFlag hf]

theorem bitFlags_putFlag (p : Byte) (b : Bool) (a m : Byte) : bitFlags (putFlag p f b) a m = putFlag (bitFlags p a m) f b := by
  obtain ⟨-, hz, hv, hn⟩ := ne_of_i_or_d hf
  rw [bitFlags, bitFlags, putFlag_comm hz, putFlag_comm hn, putFlag_comm hv]

theorem shiftFlags_putFlag (p : Byte) (b : Bool) (t : Shifted) : shiftFlags (putFlag p f b) t = putFlag (shiftFlags p t) f b := by
  obtain ⟨hc, -⟩ := ne_of_i_or_d hf
  rw [shiftFlags, shiftFlags, putFlag_comm hc, setNZ_putFlag hf]

/-- An operation that does not write the flag carries it into the state after. -/
theorem afterResolved_putFlag_of_not_written {op : Operation} (hop : op ∉ [.php, .brk]) (hw : f ∉ writtenFlags op)
    (o : Operand) (r : Resolved) (next : Word) (s : State) (b : Bool) :
    afterResolved o r next { s with p := putFlag s.p f b } op =
      { afterResolved o r next s op with p := putFlag (afterResolved o r next s op).p f b } := by
  obtain ⟨hc, hz, hv, hn⟩ := ne_of_i_or_d hf
  cases op with
  | php | brk => exact absurd (by decide) hop
  | plp | rti => exact absurd (by cases f <;> decide) hw
  | lda | ldx | ldy | tax | tay | txa | tya | tsx | inx | iny | dex | dey | and | ora | eor | pla =>
    simp only [afterResolved, setNZ_putFlag hf]
  | inc | dec => cases o <;> simp only [afterResolved, putResult, setNZ_putFlag hf]
  | sta | stx | sty => cases o <;> rfl
  | adc | sbc => simp only [afterResolved, afterSum, getFlag_putFlag_ne hc.symm, sumFlags_putFlag hf]
  | cmp | cpx | cpy => simp only [afterResolved, compareFlags_putFlag hf]
  | bit => simp only [afterResolved, bitFlags_putFlag hf]
  | asl | lsr | rol | ror =>
    cases o <;> simp only [afterResolved, afterShift, putResult, getFlag_putFlag_ne hc.symm, shiftFlags_putFlag hf]
  | bpl | bmi => simp only [afterResolved, afterBranch, getFlag_putFlag_ne hn.symm]
  | bvc | bvs => simp only [afterResolved, afterBranch, getFlag_putFlag_ne hv.symm]
  | bcc | bcs => simp only [afterResolved, afterBranch, getFlag_putFlag_ne hc.symm]
  | bne | beq => simp only [afterResolved, afterBranch, getFlag_putFlag_ne hz.symm]
  | clc | sec | cli | sei | cld | sed | clv =>
    simp only [afterResolved, putFlag_comm (List.ne_of_not_mem_cons hw)]
  | jmp | jsr | rts | pha | txs | nop => rfl

/-- An operation that writes the flag leaves nothing of the old one. -/
theorem afterResolved_putFlag_of_written {op : Operation} (hop : op ∉ [.php, .brk]) (hw : f ∈ writtenFlags op)
    (o : Operand) (r : Resolved) (next : Word) (s : State) (b : Bool) :
    afterResolved o r next { s with p := putFlag s.p f b } op = afterResolved o r next s op := by
  have hwriter : op ∈ [.plp, .rti] ∨ op ∈ [.cli, .sei, .cld, .sed] ∧ writtenFlags op = [f] := by
    revert hop hw
    obtain rfl | rfl := hf <;> cases op <;> decide
  obtain hpull | ⟨hset, hflag⟩ := hwriter
  · cases op with
    | plp | rti => rfl
    | _ => exact absurd hpull (by decide)
  · cases op with
    | cli | sei | cld | sed =>
      cases hflag
      simp only [afterResolved, putFlag_same]
    | _ => exact absurd hset (by decide)

/-- Another value of I or D, where neither the status is pushed nor decimal arithmetic can be refused. -/
theorem exec_putFlag {i : Instr} {s : State} (hop : i.operation ∉ [.php, .brk])
    (hdec : f = .d → i.operation ∈ [.adc, .sbc] → s.cfg.decimalMode = .binary) (b : Bool) :
    (f ∉ writtenFlags i.operation →
      exec i { s with p := putFlag s.p f b } = mapNext (fun t => { t with p := putFlag t.p f b }) (exec i s)) ∧
    (f ∈ writtenFlags i.operation → exec i { s with p := putFlag s.p f b } = exec i s) := by
  have htarget (m : MemOperand) (_ : i.operand = .mem m) :
      targetOf { s with p := putFlag s.p f b } m = targetOf s m := by cases m <;> rfl
  refine exec_congr_ite rfl rfl rfl htarget (valueOf_congr rfl htarget fun _ => rfl) (fun harith => ?_) fun r next => ?_
  · obtain rfl | rfl := hf
    · exact congrArg (decide (s.cfg.decimalMode = .refuse) && ·)
        (getFlag_putFlag_ne (f := .i) (g := .d) (by decide) s.p b)
    · simp [decimalRefused, hdec rfl harith]
  · split
    · next hw => exact afterResolved_putFlag_of_written hf hop hw i.operand r next s b
    · next hw => exact afterResolved_putFlag_of_not_written hf hop hw i.operand r next s b

end

/-- Settles O55: `exec_putFlag` for each of the two flags, whose writers are those of `writtenFlags`. -/
theorem interruptAndDecimalFlagsMaskNothing : Obligations.InterruptAndDecimalFlagsMaskNothing := by
  refine ⟨fun i s b hop => ?_, fun i s b hop hdec => ?_⟩
  · obtain ⟨hkeep, hwrite⟩ := exec_putFlag (.inl rfl) hop nofun b (s := s)
    refine ⟨fun hw => hkeep ?_, fun hw => hwrite ?_⟩ <;>
    · revert hop hw
      cases i.operation <;> decide
  · obtain ⟨hkeep, hwrite⟩ := exec_putFlag (.inr rfl) hop (fun _ => hdec) b
    refine ⟨fun hw => hkeep ?_, fun hw => hwrite ?_⟩ <;>
    · revert hop hw
      cases i.operation <;> decide

/-! ### The pad byte -/

/-- An operation that has the Immediate mode neither reads nor writes memory beside its operand. -/
theorem afterResolved_setMem {op : Operation} (hop : Mode.immediate ∈ legalModes op) (o : Operand) (r : Resolved) (next : Word)
    (s : State) (a : Nat) (b : Byte) :
    afterResolved o r next { s with mem := s.mem.set a b } op =
      { afterResolved o r next s op with mem := (afterResolved o r next s op).mem.set a b } := by
  cases op with
  | lda | ldx | ldy | adc | sbc | cmp | cpx | cpy | and | ora | eor | bpl | bmi | bvc | bvs | bcc | bcs | bne | beq => rfl
  | _ => exact absurd hop (by decide)

theorem exec_immediate_setMem {i : Instr} {v : Byte} (h : i.operand = .immediate v) (s : State) (a : Nat) (b : Byte) :
    exec i { s with mem := s.mem.set a b } = mapNext (fun t => { t with mem := t.mem.set a b }) (exec i s) := by
  have hop : Mode.immediate ∈ legalModes i.operation := by
    have hlegal := i.mode_mem_legalModes
    rwa [Instr.mode, h] at hlegal
  refine exec_congr rfl rfl rfl (fun m hm => ?_) ?_ (fun _ => rfl) fun r next => afterResolved_setMem hop i.operand r next s a b
  · cases h.symm.trans hm
  · rw [h]
    rfl

theorem memRead_setMem_ne {a c : Nat} (h : c ≠ a) (s : State) (b : Byte) :
    memRead { s with mem := s.mem.set a b } c = memRead s c := by
  rw [memRead, memRead, Memory.get_set_ne _ _ h]

/-- The fetch of an immediate operand reads the opcode and the byte after it alone. -/
theorem fetch_immediate_setMem {s : State} {i : Instr} {v : Byte} (hfetch : fetch s = .ok i) (h : i.operand = .immediate v)
    {a : Nat} (hopcode : s.pc.toNat ≠ a) (hbyte : (s.pc + 1).toNat ≠ a) (b : Byte) :
    fetch { s with mem := s.mem.set a b } = .ok i := by
  obtain ⟨op, form, hread, hform, hoperand⟩ := fetch_eq_ok.mp hfetch
  refine fetch_eq_ok.mpr ⟨op, form, (memRead_setMem_ne hopcode s b).trans hread, hform, ?_⟩
  have hfits := formOf_fits hform
  cases form with
  | bare j => exact hoperand
  | byte g => exact (congrArg (Except.map g) (memRead_setMem_ne hbyte s b)).trans hoperand
  | word g =>
    obtain ⟨w, -, rfl⟩ := exceptMap_eq_ok.mp hoperand
    obtain ⟨-, hbytes, -⟩ := hfits w
    rw [h] at hbytes
    cases hbytes

/-- Settles O60: the pad byte's address is that of neither byte fetched, and the instruction makes no other access. -/
theorem padByteNeverRead : Obligations.PadByteNeverRead := by
  intro s i v b _ hfetch h
  have hopcode : s.pc.toNat ≠ (s.pc + 2).toNat := by bv_omega
  have hbyte : (s.pc + 1).toNat ≠ (s.pc + 2).toNat := by bv_omega
  rw [step_of_fetch (fetch_immediate_setMem hfetch h hopcode hbyte b), step_of_fetch hfetch]
  exact exec_immediate_setMem h s _ b

end Sys2Proof.Machine
end
